-- ==== Sys2Proof/Word.lean ====
section
/-! DEFINITION. The data of the engine (00_scope.md R7, R11): bytes, 32-bit words, and four-fold groups of them. -/

namespace Sys2Proof

/-- A byte, also an element of GF(2^8) (R11, R100). -/
abbrev Byte := BitVec 8

/-- A word of four bytes, the byte of lowest index in bits 31:24 (R11). -/
abbrev Word := BitVec 32

/-- Four like things: the rows of a column, the columns of the state, the key words (R7: Nb = Nk = 4). -/
structure Quad (α : Type) where
  a0 : α
  a1 : α
  a2 : α
  a3 : α
deriving DecidableEq, Repr, Inhabited

/-- Member `k` of a group of four. -/
def Quad.get {α : Type} (q : Quad α) : Fin 4 → α
  | 0 => q.a0
  | 1 => q.a1
  | 2 => q.a2
  | 3 => q.a3

/-- The group of four whose member `k` is `f k`. -/
def Quad.ofFn {α : Type} (f : Fin 4 → α) : Quad α := ⟨f 0, f 1, f 2, f 3⟩

/-- The group with member `k` replaced. -/
def Quad.set {α : Type} (q : Quad α) (k : Fin 4) (v : α) : Quad α :=
  Quad.ofFn fun i => if i = k then v else q.get i

/-- One column of the state, row 0 first (R33). -/
abbrev Column := Quad Byte

/-- The 4×4 state matrix `s[r][c]` (R11, R33), held as its four columns. -/
abbrev StateMatrix := Quad Column

/-- A block: the sequence of 16 bytes `B[0] .. B[15]` (R11). -/
abbrev Block := Vector Byte 16

/-- A key schedule: the 44 words `w[0..43]` (R35, R174). -/
abbrev Schedule := Vector Word 44

end Sys2Proof
end

