-- ==== Sys2Proof/Config.lean ====
section
/-! DEFINITION. What the spec leaves open: the parameters RESET_DATA and BUSY_READ (00_scope.md R9).
They are constants without a body, so a proof about the model holds whatever their values are. -/

namespace Sys2Proof

/-- The registers whose contents after reset are the parameter RESET_DATA (70_reset_and_hazards.md R240, R241),
and the command latch, whose contents after reset are unspecified (10_state.md R23). -/
structure DataRegs where
  cmdl  : Word
  opa   : Byte
  opb   : Byte
  res   : Byte
  key   : Quad Word
  state : StateMatrix
  rk    : Schedule
deriving DecidableEq, Repr, Inhabited

/-- RESET_DATA of the power-on reset (R240, R241): any value in each register. Log entry 1. -/
opaque Config.powerOnData : DataRegs

/-- RESET_DATA of a later reset (R241, R242): any value in each register, drawn anew at each reset (the draw's number) and
free to depend on what the registers held (R242: the old value, the command's result or a partial one). Log entry 1. -/
opaque Config.resetData : Nat → DataRegs → DataRegs

/-- BUSY_READ (20_memory.md R60): the value a read of RES, STATE0..3 or RKW0..43 returns while BUSY = 1, drawn anew at each
such read (the draw's number), free to depend on the register's address and on the registers' contents. Log entry 2. -/
opaque Config.busyRead : Nat → Nat → DataRegs → Word

end Sys2Proof
end

