-- ==== Sys2Proof/Syntax.lean ====
section
/-! DEFINITION. The commands of the engine: one constructor per row of the opcode map (30_encoding.md R82). -/

namespace Sys2Proof

/-- A command. The only operand a command word carries is RND of ADD_ROUND_KEY (R81), kept as its four bits. -/
inductive Instr where
  | nop
  | gfAdd
  | gfXtime
  | gfMul
  | sbox
  | invSbox
  | subBytes
  | invSubBytes
  | shiftRows
  | invShiftRows
  | mixColumns
  | invMixColumns
  | addRoundKey (rnd : BitVec 4)
  | expandKey
  | encrypt
  | decrypt
deriving DecidableEq, Repr

end Sys2Proof
end

