-- ==== Sys2Proof/WellFormed.lean ====
section
/-! DEFINITION. Which terms of `Instr` are commands of the hardware (30_encoding.md R83). -/

namespace Sys2Proof

/-- A round index names a round key only in 0..10 (R80, R83, R175). -/
def roundOk (rnd : BitVec 4) : Bool := decide (rnd.toNat ≤ 10)

/-- The well-formed commands: the only check is ADD_ROUND_KEY's round index (R83). -/
def Instr.wf : Instr → Bool
  | .nop => true
  | .gfAdd => true
  | .gfXtime => true
  | .gfMul => true
  | .sbox => true
  | .invSbox => true
  | .subBytes => true
  | .invSubBytes => true
  | .shiftRows => true
  | .invShiftRows => true
  | .mixColumns => true
  | .invMixColumns => true
  | .addRoundKey rnd => roundOk rnd
  | .expandKey => true
  | .encrypt => true
  | .decrypt => true

end Sys2Proof
end

