-- ==== Sys2Proof/Decode.lean ====
section
/-! DEFINITION. The command word (30_encoding.md R80 to R85): the decoder, total on every word and rejecting by name, and
the encoder written from the same opcode map. -/

namespace Sys2Proof

/-- Why a word is no legal command (R84), in the order R85 makes the checks. -/
inductive DecodeError where
  /-- a bit of 31:12 is set -/
  | reservedBits
  /-- OPC is not in the opcode map -/
  | unknownOpcode
  /-- ADD_ROUND_KEY with RND in 11..15 -/
  | roundOutOfRange
  /-- another command with RND ≠ 0 -/
  | roundNotZero
deriving DecidableEq, Repr

/-- OPC, bits 7:0 (R80). -/
def opcField (w : Word) : Byte := w.extractLsb' 0 8

/-- RND, bits 11:8 (R80, R81). -/
def rndField (w : Word) : BitVec 4 := w.extractLsb' 8 4

/-- RSV, bits 31:12 (R80). -/
def rsvField (w : Word) : BitVec 20 := w.extractLsb' 12 20

/-- The opcode map (R82) read from OPC to command; RND is ADD_ROUND_KEY's operand and no other command's. -/
def ofOpcode (opc : Byte) (rnd : BitVec 4) : Option Instr :=
  match opc.toNat with
  | 0x00 => some .nop
  | 0x01 => some .gfAdd
  | 0x02 => some .gfXtime
  | 0x03 => some .gfMul
  | 0x04 => some .sbox
  | 0x05 => some .invSbox
  | 0x10 => some .subBytes
  | 0x11 => some .invSubBytes
  | 0x12 => some .shiftRows
  | 0x13 => some .invShiftRows
  | 0x14 => some .mixColumns
  | 0x15 => some .invMixColumns
  | 0x16 => some (.addRoundKey rnd)
  | 0x20 => some .expandKey
  | 0x30 => some .encrypt
  | 0x31 => some .decrypt
  | _ => none

/-- Decoding a command word: the four checks of R85 in the order written there. -/
def decode (w : Word) : Except DecodeError Instr :=
  if rsvField w ≠ 0 then .error .reservedBits
  else match ofOpcode (opcField w) (rndField w) with
    | none => .error .unknownOpcode
    | some i =>
      if opcField w = 0x16 ∧ 10 < (rndField w).toNat then .error .roundOutOfRange
      else if opcField w ≠ 0x16 ∧ rndField w ≠ 0 then .error .roundNotZero
      else .ok i

/-- The opcode map (R82) read from command to OPC. -/
def Instr.opcode : Instr → Byte
  | .nop => 0x00
  | .gfAdd => 0x01
  | .gfXtime => 0x02
  | .gfMul => 0x03
  | .sbox => 0x04
  | .invSbox => 0x05
  | .subBytes => 0x10
  | .invSubBytes => 0x11
  | .shiftRows => 0x12
  | .invShiftRows => 0x13
  | .mixColumns => 0x14
  | .invMixColumns => 0x15
  | .addRoundKey _ => 0x16
  | .expandKey => 0x20
  | .encrypt => 0x30
  | .decrypt => 0x31

/-- The RND field of a command's word: 0 for every command but ADD_ROUND_KEY (R80). -/
def Instr.rnd : Instr → BitVec 4
  | .nop => 0
  | .gfAdd => 0
  | .gfXtime => 0
  | .gfMul => 0
  | .sbox => 0
  | .invSbox => 0
  | .subBytes => 0
  | .invSubBytes => 0
  | .shiftRows => 0
  | .invShiftRows => 0
  | .mixColumns => 0
  | .invMixColumns => 0
  | .addRoundKey rnd => rnd
  | .expandKey => 0
  | .encrypt => 0
  | .decrypt => 0

/-- The command word: RSV = 0, RND, OPC (R80). -/
def encode (i : Instr) : Word := (0#20 ++ i.rnd) ++ i.opcode

/-- What the decoder reads from an instruction whose bits are `w`, numbered as the opcode table numbers them: the one word
of a command, the bits above `nbits` zero. -/
def decodeTableWord (nbits w : Nat) : Option Instr :=
  (decode (BitVec.ofNat 32 (w % 2 ^ nbits))).toOption

end Sys2Proof
end

