-- ==== Sys2Proof/Machine/State.lean ====
section
/-! DEFINITION. The state of the engine and of its host as plain data (10_state.md R20; 00_scope.md R13), the reasons a step
can stop, and the state after reset (70_reset_and_hazards.md R240). -/

namespace Sys2Proof.Machine

/-- The mapped host registers (20_memory.md R50). -/
inductive Reg where
  | cmd
  | status
  | opa
  | opb
  | res
  | key (j : Fin 4)
  | state (c : Fin 4)
  | rkw (i : Fin 44)
deriving DecidableEq, Repr

/-- The two agents (00_scope.md R13). -/
inductive Agent where
  | host
  | engine
deriving DecidableEq, Repr

/-- One line of a host program (30_encoding.md R86, R87). An access names a byte address and a width in bytes, as MemRead and
MemWrite do (R51), so that an access R52 refuses can be written down. -/
inductive HostOp where
  /-- RD -/
  | read (addr width : Nat)
  /-- WR -/
  | write (addr width : Nat) (v : Word)
  /-- RESET -/
  | reset
  /-- POLL: read STATUS, repeating while BUSY = 1 (R87) -/
  | poll
deriving DecidableEq, Repr

/-- Faults. The hardware has none: a command error is a code in STATUS.ERR and the machine goes on (60_exceptions.md R212,
R215), so no constructor is needed and no step can fault. -/
inductive Fault
deriving DecidableEq, Repr

/-- Reasons the model gives a step no meaning. The three access refusals are the spec's own (20_memory.md R52: the model
refuses the host program that makes such an access); they are safe. -/
inductive Refusal where
  /-- an instruction without a meaning yet, by its mnemonic; raised by no arm of this model; safe -/
  | notModelled (mnemonic : String)
  /-- raised by a host access whose width is not 4 bytes (R52); safe -/
  | accessWidth (addr width : Nat)
  /-- raised by a 32-bit host access at an address that is no multiple of 4 (R52); safe -/
  | accessMisaligned (addr : Nat)
  /-- raised by an aligned 32-bit host access at an address where no register is mapped (R50, R52); safe -/
  | accessReserved (addr : Nat)
deriving DecidableEq, Repr

/-- The whole machine. The first eleven fields are the architectural state, exactly R20's list; the last four are the
model's own: the host's program, the interleaving, the host's read data and the draw counter. -/
structure State where
  /-- the command latch CMDL, meaningful only while BUSY = 1 (R23). -/
  cmdl : Word
  /-- BUSY: a latched command has not yet executed (R25). -/
  busy : Bool
  /-- KSV: the round-key store holds a key schedule (R26). -/
  ksv : Bool
  /-- ERR: the result code of the last executed command (R27). -/
  err : BitVec 3
  /-- OVR, sticky: a host write was dropped (R28). -/
  ovr : Bool
  /-- OPA, the first byte operand (R29). -/
  opa : Byte
  /-- OPB, the second byte operand (R30). -/
  opb : Byte
  /-- RES, the byte result (R31). -/
  res : Byte
  /-- KEY0..KEY3, the cipher key (R32). -/
  key : Quad Word
  /-- STATE, the state matrix (R33). -/
  state : StateMatrix
  /-- RK[0..43], the round-key store (R35). -/
  rk : Schedule
  /-- the host's accesses still to come, in program order (R13, R62, R86). MODEL'S OWN, log entry 3. -/
  host : List HostOp
  /-- which agent moves at the coming steps while BUSY = 1 (R62, R252). MODEL'S OWN, log entry 4. -/
  turns : List Agent
  /-- the value the host's last completed read returned (R54). MODEL'S OWN, log entry 5. -/
  rdata : Option Word
  /-- how many free values have been drawn (R9, R241, R60). MODEL'S OWN, log entry 2. -/
  draws : Nat
deriving DecidableEq, Repr

/-- The registers a reset leaves open, together (R240, R241). -/
def State.dataRegs (s : State) : DataRegs :=
  { cmdl := s.cmdl, opa := s.opa, opb := s.opb, res := s.res, key := s.key, state := s.state, rk := s.rk }

/-- The machine right after the power-on reset (R240): control state 0, data registers RESET_DATA, the engine idle. No host
access is pending and no free value has been drawn (DESIGN CHOICE, log entries 2 to 5). -/
def State.reset : State :=
  { cmdl := Config.powerOnData.cmdl
    busy := false
    ksv := false
    err := 0
    ovr := false
    opa := Config.powerOnData.opa
    opb := Config.powerOnData.opb
    res := Config.powerOnData.res
    key := Config.powerOnData.key
    state := Config.powerOnData.state
    rk := Config.powerOnData.rk
    host := []
    turns := []
    rdata := none
    draws := 0 }

end Sys2Proof.Machine
end

