-- ==== Sys2Proof/Machine/Flags.lean ====
section
/-! DEFINITION. STATUS (10_state.md R24) and the error codes (60_exceptions.md R210). The engine has no condition codes (R38). -/

namespace Sys2Proof.Machine

/-- NONE: the command executed (R210). -/
abbrev ErrCode.none : BitVec 3 := 0
/-- ILLEGAL: the latched word is no legal encoding (R210, R211). -/
abbrev ErrCode.illegal : BitVec 3 := 1
/-- NOKEY: the command needs the round-key store and KSV = 0 (R210, R211). -/
abbrev ErrCode.noKey : BitVec 3 := 2

/-- The host's view of the status fields: `zext_32({OVR, 0b000, ERR, KSV, BUSY})` (R24). -/
def statusWord (s : State) : Word :=
  0#23 ++ BitVec.ofBool s.ovr ++ 0#3 ++ s.err ++ BitVec.ofBool s.ksv ++ BitVec.ofBool s.busy

/-- Whether a word written to STATUS clears OVR: bit 8, write-1-to-clear (R24, R57). -/
def clearsOvr (v : Word) : Bool := v.getLsbD 8

/-- Whether a word read from STATUS shows BUSY = 1: bit 0 (R24, R87 POLL). -/
def showsBusy (v : Word) : Bool := v.getLsbD 0

end Sys2Proof.Machine
end

