-- ==== Sys2Proof/Machine/Operands.lean ====
section
/-! DEFINITION. Operand forms: bytes in words, words in columns, blocks in states, the key, and round keys
(00_scope.md R11; 10_state.md R32 to R35; 42_transforms.md R147). -/

namespace Sys2Proof.Machine

/-- `byte_k(W) = W[31-8k : 24-8k]` (R11). -/
def byteOf (k : Fin 4) (w : Word) : Byte := w.extractLsb' (24 - 8 * k.val) 8

/-- `{b0, b1, b2, b3}` (R10, R11). -/
def wordOf (q : Column) : Word := q.a0 ++ q.a1 ++ q.a2 ++ q.a3

/-- The four bytes of a word, most significant first (R11). -/
def columnOf (w : Word) : Column := Quad.ofFn fun k => byteOf k w

/-- `s[r][c]` (R33). -/
def entry (m : StateMatrix) (r c : Fin 4) : Byte := (m.get c).get r

/-- The matrix with `s[r][c] = f r c`. -/
def matrixOf (f : Fin 4 → Fin 4 → Byte) : StateMatrix := Quad.ofFn fun c => Quad.ofFn fun r => f r c

/-- STATEc, column `c` as a host register, row 0 in the most significant byte (R33). -/
def stateWord (m : StateMatrix) (c : Fin 4) : Word := wordOf (m.get c)

/-- A host write of `v` to STATEc: `s[r][c] <- byte_r(v)` (R33, R56). -/
def setStateWord (m : StateMatrix) (c : Fin 4) (v : Word) : StateMatrix := m.set c (columnOf v)

/-- `Load(B)`: byte `i` of the block goes to `s[i mod 4][i / 4]`, so `s[r][c] = B[4c + r]` (R34). -/
def load (b : Block) : StateMatrix := matrixOf fun r c => b[4 * c.val + r.val]

/-- `Store(s)`: `B[i] = s[i mod 4][i / 4]` (R34). -/
def store (m : StateMatrix) : Block :=
  Vector.ofFn fun i => entry m ⟨i.val % 4, by omega⟩ ⟨i.val / 4, by omega⟩

/-- The key bytes `K[4j+k] = byte_k(KEYj)` (R32). -/
def keyBytes (key : Quad Word) : Block :=
  Vector.ofFn fun i => byteOf ⟨i.val % 4, by omega⟩ (key.get ⟨i.val / 4, by omega⟩)

/-- Word `j` of a 16-byte sequence: `{K[4j], K[4j+1], K[4j+2], K[4j+3]}` (R170). -/
def blockWord (b : Block) (j : Fin 4) : Word :=
  wordOf ⟨b[4 * j.val], b[4 * j.val + 1], b[4 * j.val + 2], b[4 * j.val + 3]⟩

/-- The round key of round `rnd` as a state-shaped matrix: `RKM(w, rnd)[r][c] = byte_r(w[4·rnd + c])` (R147, R175). -/
def roundKeyMatrix (w : Schedule) (rnd : Fin 11) : StateMatrix :=
  matrixOf fun r c => byteOf r w[4 * rnd.val + c.val]

end Sys2Proof.Machine
end

