-- ==== Sys2Proof/Machine/Ops.lean ====
section
/-! DEFINITION. The updates of single registers and the operations the commands share: how a command ends, how it fails
(60_exceptions.md R212; the hardware has no trap and no return from one, R215, R216), and the key-schedule check. -/

namespace Sys2Proof.Machine

/-- `cmdl` replaced. -/
def State.setCmdl (s : State) (v : Word) : State := { s with cmdl := v }

/-- `busy` replaced. -/
def State.setBusy (s : State) (v : Bool) : State := { s with busy := v }

/-- `ksv` replaced. -/
def State.setKsv (s : State) (v : Bool) : State := { s with ksv := v }

/-- `err` replaced. -/
def State.setErr (s : State) (v : BitVec 3) : State := { s with err := v }

/-- `ovr` replaced. -/
def State.setOvr (s : State) (v : Bool) : State := { s with ovr := v }

/-- `opa` replaced. -/
def State.setOpa (s : State) (v : Byte) : State := { s with opa := v }

/-- `opb` replaced. -/
def State.setOpb (s : State) (v : Byte) : State := { s with opb := v }

/-- `res` replaced. -/
def State.setRes (s : State) (v : Byte) : State := { s with res := v }

/-- `key` replaced. -/
def State.setKey (s : State) (v : Quad Word) : State := { s with key := v }

/-- `state` replaced. -/
def State.setState (s : State) (v : StateMatrix) : State := { s with state := v }

/-- `rk` replaced. -/
def State.setRk (s : State) (v : Schedule) : State := { s with rk := v }

/-- `host` replaced. -/
def State.setHost (s : State) (v : List HostOp) : State := { s with host := v }

/-- `turns` replaced. -/
def State.setTurns (s : State) (v : List Agent) : State := { s with turns := v }

/-- `rdata` replaced. -/
def State.setRdata (s : State) (v : Option Word) : State := { s with rdata := v }

/-- `draws` replaced. -/
def State.setDraws (s : State) (v : Nat) : State := { s with draws := v }

/-- All data registers replaced at once (R240). -/
def State.setDataRegs (s : State) (d : DataRegs) : State :=
  { s with cmdl := d.cmdl, opa := d.opa, opb := d.opb, res := d.res, key := d.key, state := d.state, rk := d.rk }

/-- The end of a performed command: `ERR <- NONE` (30_encoding.md R85). -/
def finish (s : State) : Host.Outcome State Fault Refusal := .next (s.setErr ErrCode.none)

/-- `raise CmdError(code)`: the command ends with `ERR <- code` and no other write (60_exceptions.md R212). -/
def cmdError (code : BitVec 3) (s : State) : Host.Outcome State Fault Refusal := .next (s.setErr code)

/-- A byte command's end: `RES <- v; ERR <- NONE` (R81, R85). -/
def byteResult (v : Byte) (s : State) : Host.Outcome State Fault Refusal := finish (s.setRes v)

/-- A state command's end: `STATE <- m; ERR <- NONE` (R81, R140). -/
def stateResult (m : StateMatrix) (s : State) : Host.Outcome State Fault Refusal := finish (s.setState m)

/-- The check `KSV = 0` of R85 before a command that reads the round-key store: NOKEY, or what the command does. -/
def withKeySchedule (s : State) (perform : State → Host.Outcome State Fault Refusal) : Host.Outcome State Fault Refusal :=
  if s.ksv then perform s else cmdError ErrCode.noKey s

/-- The reset event (70_reset_and_hazards.md R240 to R242): control state 0, every data register a fresh RESET_DATA draw. -/
def resetEvent (s : State) : State :=
  ((((s.setDataRegs (Config.resetData s.draws s.dataRegs)).setDraws (s.draws + 1)).setBusy false).setKsv false).setErr ErrCode.none |>.setOvr false

end Sys2Proof.Machine
end

