-- ==== Sys2Proof/Machine/GfArith.lean ====
section
/-! DEFINITION. GF(2^8) arithmetic and its three commands (40_gf_arith.md). -/

namespace Sys2Proof.Machine

/-- Field addition (R101). -/
def gfAdd (a b : Byte) : Byte := a ^^^ b

/-- Multiplication by x (R102). -/
def xtime (a : Byte) : Byte := if a.getLsbD 7 then (a <<< 1) ^^^ 0x1B else a <<< 1

/-- The loop of R103 from its iteration `k` on, `n` iterations left, with the product so far `p` and the copy `t` of `a`. -/
def gfMulLoop (b : Byte) : (n k : Nat) → (p t : Byte) → Byte
  | 0, _, p, _ => p
  | n + 1, k, p, t => gfMulLoop b n (k + 1) (if b.getLsbD k then p ^^^ t else p) (xtime t)

/-- Field multiplication (R103): always eight iterations. -/
def gfMul (a b : Byte) : Byte := gfMulLoop b 8 0 0 a

/-- GF_ADD (R106): `RES <- gf_add(OPA, OPB)`. -/
def execGfAdd (s : State) : Host.Outcome State Fault Refusal := byteResult (gfAdd s.opa s.opb) s

/-- GF_XTIME (R107): `RES <- xtime(OPA)`. -/
def execGfXtime (s : State) : Host.Outcome State Fault Refusal := byteResult (xtime s.opa) s

/-- GF_MUL (R108): `RES <- gf_mul(OPA, OPB)`. -/
def execGfMul (s : State) : Host.Outcome State Fault Refusal := byteResult (gfMul s.opa s.opb) s

end Sys2Proof.Machine
end

