-- ==== Sys2Proof/Machine/KeySchedule.lean ====
section
/-! DEFINITION. The key schedule and EXPAND_KEY (43_key_schedule.md). -/

namespace Sys2Proof.Machine

/-- `RotWord(W) = {W[23:0], W[31:24]}` (R171). -/
def rotWord (w : Word) : Word := w.extractLsb' 0 24 ++ w.extractLsb' 24 8

/-- `SubWord(W)`: the S-box on each of the four bytes (R172). -/
def subWord (w : Word) : Word :=
  wordOf ⟨subByte (byteOf 0 w), subByte (byteOf 1 w), subByte (byteOf 2 w), subByte (byteOf 3 w)⟩

/-- `j` doublings of 1: `RCON[j + 1]` (R173). -/
def rconFrom : Nat → Byte
  | 0 => 0x01
  | j + 1 => xtime (rconFrom j)

/-- `RCON[j]` for `j` in 1..10 (R173); the schedule uses no other index. -/
def rcon (j : Nat) : Byte := rconFrom (j - 1)

/-- `temp` of iteration `i` of R174, from `w[i-1]`. -/
def scheduleTemp (i : Nat) (prev : Word) : Word :=
  if i % 4 = 0 then subWord (rotWord prev) ^^^ (rcon (i / 4) ++ 0#24) else prev

/-- The `n` words of the schedule from word `i` on (R174), given the four words `w[i-4], w[i-3], w[i-2], w[i-1]` before it. -/
def expandWords : (n i : Nat) → (w4 w3 w2 w1 : Word) → List Word
  | 0, _, _, _, _, _ => []
  | n + 1, i, w4, w3, w2, w1 =>
    (w4 ^^^ scheduleTemp i w1) :: expandWords n (i + 1) w3 w2 w1 (w4 ^^^ scheduleTemp i w1)

theorem expandWords_length (n i : Nat) (w4 w3 w2 w1 : Word) : (expandWords n i w4 w3 w2 w1).length = n := by
  induction n generalizing i w4 w3 w2 w1 with
  | zero => rfl
  | succ n ih => simp [expandWords, ih]

/-- The 44 words of the schedule (R174): the four words of the key (R170), then forty more. -/
def scheduleWords (k : Block) : List Word :=
  [blockWord k 0, blockWord k 1, blockWord k 2, blockWord k 3]
    ++ expandWords 40 4 (blockWord k 0) (blockWord k 1) (blockWord k 2) (blockWord k 3)

theorem scheduleWords_length (k : Block) : (scheduleWords k).length = 44 := by
  simp [scheduleWords, expandWords_length]

/-- `ExpandKey(K)` (R174). -/
def expandKey (k : Block) : Schedule := ⟨(scheduleWords k).toArray, scheduleWords_length k⟩

/-- EXPAND_KEY (R177): all 44 words of RK replaced, `KSV <- 1`. -/
def execExpandKey (s : State) : Host.Outcome State Fault Refusal :=
  finish ((s.setRk (expandKey (keyBytes s.key))).setKsv true)

end Sys2Proof.Machine
end

