-- ==== Sys2Proof/Machine/Transforms.lean ====
section
/-! DEFINITION. The state transforms and their seven commands (42_transforms.md). -/

namespace Sys2Proof.Machine

/-- SubBytes (R141). -/
def subBytes (s : StateMatrix) : StateMatrix := matrixOf fun r c => subByte (entry s r c)

/-- InvSubBytes (R142). -/
def invSubBytes (s : StateMatrix) : StateMatrix := matrixOf fun r c => invSubByte (entry s r c)

/-- ShiftRows (R143): `s'[r][c] = s[r][(c + r) mod 4]`. -/
def shiftRows (s : StateMatrix) : StateMatrix :=
  matrixOf fun r c => entry s r ⟨(c.val + r.val) % 4, by omega⟩

/-- InvShiftRows (R144): `s'[r][c] = s[r][(c + 4 - r) mod 4]`. -/
def invShiftRows (s : StateMatrix) : StateMatrix :=
  matrixOf fun r c => entry s r ⟨(c.val + 4 - r.val) % 4, by omega⟩

/-- The matrix M of MixColumns, by rows (R145). -/
def mixMatrix : Quad (Quad Byte) :=
  ⟨⟨0x02, 0x03, 0x01, 0x01⟩,
   ⟨0x01, 0x02, 0x03, 0x01⟩,
   ⟨0x01, 0x01, 0x02, 0x03⟩,
   ⟨0x03, 0x01, 0x01, 0x02⟩⟩

/-- The matrix Minv of InvMixColumns, by rows (R146). -/
def invMixMatrix : Quad (Quad Byte) :=
  ⟨⟨0x0e, 0x0b, 0x0d, 0x09⟩,
   ⟨0x09, 0x0e, 0x0b, 0x0d⟩,
   ⟨0x0d, 0x09, 0x0e, 0x0b⟩,
   ⟨0x0b, 0x0d, 0x09, 0x0e⟩⟩

/-- One output byte of a column: the field-sum of four field-products (R145, R146). -/
def rowTimesColumn (row : Quad Byte) (col : Column) : Byte :=
  gfAdd (gfAdd (gfAdd (gfMul row.a0 col.a0) (gfMul row.a1 col.a1)) (gfMul row.a2 col.a2)) (gfMul row.a3 col.a3)

/-- MixColumns (R145). -/
def mixColumns (s : StateMatrix) : StateMatrix :=
  matrixOf fun r c => rowTimesColumn (mixMatrix.get r) (s.get c)

/-- InvMixColumns (R146). -/
def invMixColumns (s : StateMatrix) : StateMatrix :=
  matrixOf fun r c => rowTimesColumn (invMixMatrix.get r) (s.get c)

/-- AddRoundKey (R148). -/
def addRoundKey (s : StateMatrix) (w : Schedule) (rnd : Fin 11) : StateMatrix :=
  matrixOf fun r c => gfAdd (entry s r c) (entry (roundKeyMatrix w rnd) r c)

/-- SUB_BYTES (R150). -/
def execSubBytes (s : State) : Host.Outcome State Fault Refusal := stateResult (subBytes s.state) s

/-- INV_SUB_BYTES (R151). -/
def execInvSubBytes (s : State) : Host.Outcome State Fault Refusal := stateResult (invSubBytes s.state) s

/-- SHIFT_ROWS (R152). -/
def execShiftRows (s : State) : Host.Outcome State Fault Refusal := stateResult (shiftRows s.state) s

/-- INV_SHIFT_ROWS (R153). -/
def execInvShiftRows (s : State) : Host.Outcome State Fault Refusal := stateResult (invShiftRows s.state) s

/-- MIX_COLUMNS (R154). -/
def execMixColumns (s : State) : Host.Outcome State Fault Refusal := stateResult (mixColumns s.state) s

/-- INV_MIX_COLUMNS (R155). -/
def execInvMixColumns (s : State) : Host.Outcome State Fault Refusal := stateResult (invMixColumns s.state) s

/-- ADD_ROUND_KEY r (R156): ILLEGAL for r > 10, which takes precedence over NOKEY (R213). -/
def execAddRoundKey (rnd : BitVec 4) (s : State) : Host.Outcome State Fault Refusal :=
  if h : rnd.toNat < 11 then
    withKeySchedule s fun s => stateResult (addRoundKey s.state s.rk ⟨rnd.toNat, h⟩) s
  else cmdError ErrCode.illegal s

end Sys2Proof.Machine
end

