-- ==== Sys2Proof/Machine/Cipher.lean ====
section
/-! DEFINITION. The block functions and the commands ENCRYPT, DECRYPT and NOP (44_cipher.md). -/

namespace Sys2Proof.Machine

/-- One of the rounds 1..9 of encryption (R190). -/
def encryptRound (w : Schedule) (s : StateMatrix) (rnd : Fin 11) : StateMatrix :=
  addRoundKey (mixColumns (shiftRows (subBytes s))) w rnd

/-- One of the rounds 9..1 of decryption (R191). -/
def decryptRound (w : Schedule) (s : StateMatrix) (rnd : Fin 11) : StateMatrix :=
  invSubBytes (invShiftRows (invMixColumns (addRoundKey s w rnd)))

/-- `EncryptBlock(B, w)` on the loaded state (R190): no MixColumns in round 10. -/
def encryptState (s : StateMatrix) (w : Schedule) : StateMatrix :=
  let t := [1, 2, 3, 4, 5, 6, 7, 8, 9].foldl (encryptRound w) (addRoundKey s w 0)
  addRoundKey (shiftRows (subBytes t)) w 10

/-- `DecryptBlock(B, w)` on the loaded state (R191). -/
def decryptState (s : StateMatrix) (w : Schedule) : StateMatrix :=
  let t := invSubBytes (invShiftRows (addRoundKey s w 10))
  addRoundKey ([9, 8, 7, 6, 5, 4, 3, 2, 1].foldl (decryptRound w) t) w 0

/-- `EncryptBlock(B, w)` (R190). -/
def encryptBlock (b : Block) (w : Schedule) : Block := store (encryptState (load b) w)

/-- `DecryptBlock(B, w)` (R191). -/
def decryptBlock (b : Block) (w : Schedule) : Block := store (decryptState (load b) w)

/-- ENCRYPT (R194): `STATE <- Load(EncryptBlock(Store(STATE), RK))`. -/
def execEncrypt (s : State) : Host.Outcome State Fault Refusal :=
  withKeySchedule s fun s => stateResult (load (encryptBlock (store s.state) s.rk)) s

/-- DECRYPT (R195): `STATE <- Load(DecryptBlock(Store(STATE), RK))`. -/
def execDecrypt (s : State) : Host.Outcome State Fault Refusal :=
  withKeySchedule s fun s => stateResult (load (decryptBlock (store s.state) s.rk)) s

/-- NOP (R196): `ERR <- NONE`. -/
def execNop (s : State) : Host.Outcome State Fault Refusal := finish s

end Sys2Proof.Machine
end

