-- ==== Sys2Proof/Machine/HostBus.lean ====
section
/-! DEFINITION. The host register space: its map, reads and writes (20_memory.md), and one turn of the host. -/

namespace Sys2Proof.Machine

/-- The register map: the byte address of each register (R50). -/
def Reg.addr : Reg → Nat
  | .cmd => 0x000
  | .status => 0x004
  | .opa => 0x008
  | .opb => 0x00C
  | .res => 0x010
  | .key j => 0x020 + 4 * j.val
  | .state c => 0x030 + 4 * c.val
  | .rkw i => 0x100 + 4 * i.val

/-- Every mapped register (R50). -/
def allRegs : List Reg :=
  [.cmd, .status, .opa, .opb, .res] ++ (List.finRange 4).map .key ++ (List.finRange 4).map .state
    ++ (List.finRange 44).map .rkw

/-- The register mapped at an address; every other address is reserved (R50). -/
def regAt (addr : Nat) : Option Reg := allRegs.find? fun r => r.addr == addr

/-- The register an access names, or why the model refuses the access (R52): another width than 32 bits, a misaligned
address, a reserved address. -/
def access (addr width : Nat) : Except Refusal Reg :=
  if width ≠ 4 then .error (.accessWidth addr width)
  else if addr % 4 ≠ 0 then .error (.accessMisaligned addr)
  else match regAt addr with
    | some r => .ok r
    | none => .error (.accessReserved addr)

/-- The exact value of each register as the host sees it (R54; CMD and KEY read as 0). -/
def regValue (s : State) : Reg → Word
  | .cmd => 0
  | .status => statusWord s
  | .opa => s.opa.zeroExtend 32
  | .opb => s.opb.zeroExtend 32
  | .res => s.res.zeroExtend 32
  | .key _ => 0
  | .state c => stateWord s.state c
  | .rkw i => s.rk[i.val]

/-- The registers whose reads are BUSY_READ while BUSY = 1 (R60). -/
def hiddenWhileBusy : Reg → Bool
  | .cmd => false
  | .status => false
  | .opa => false
  | .opb => false
  | .res => true
  | .key _ => false
  | .state _ => true
  | .rkw _ => true

/-- The value `MemRead` returns (R54, R60). -/
def readValue (s : State) (r : Reg) : Word :=
  if s.busy && hiddenWhileBusy r then Config.busyRead s.draws r.addr s.dataRegs else regValue s r

/-- The draw counter after a read: a BUSY_READ is a fresh draw (R54, R60). -/
def drawsAfterRead (s : State) (r : Reg) : Nat := if s.busy && hiddenWhileBusy r then s.draws + 1 else s.draws

/-- A completed read: its value on the host's side and no side effect on the engine (R54). -/
def memRead (s : State) (r : Reg) : State := (s.setDraws (drawsAfterRead s r)).setRdata (some (readValue s r))

/-- The effect of a write to a register that is protected while BUSY = 1: dropped, with OVR set (R58). -/
def unlessBusy (s : State) (accepted : State) : State := if s.busy then s.setOvr true else accepted

/-- `MemWrite` (R55 to R59). -/
def memWrite (s : State) (r : Reg) (v : Word) : State :=
  match r with
  | .cmd => unlessBusy s ((s.setCmdl v).setBusy true)
  | .status => if clearsOvr v then s.setOvr false else s
  | .opa => unlessBusy s (s.setOpa (byteOf 3 v))
  | .opb => unlessBusy s (s.setOpb (byteOf 3 v))
  | .res => s
  | .key j => unlessBusy s (s.setKey (s.key.set j v))
  | .state c => unlessBusy s (s.setState (setStateWord s.state c v))
  | .rkw _ => s

/-- One read of STATUS by POLL (R87): the host goes on with `rest` once it shows BUSY = 0, and reads again until then. -/
def pollRead (s : State) (rest : List HostOp) : State :=
  memRead (if showsBusy (readValue s .status) then s else s.setHost rest) .status

/-- One host access, the first of the host's program (R13, R62). -/
def hostStep (s : State) : Host.Outcome State Fault Refusal :=
  match s.host with
  | [] => .next s
  | .read addr width :: rest =>
    match access addr width with
    | .ok r => .next (memRead (s.setHost rest) r)
    | .error e => .refused e
  | .write addr width v :: rest =>
    match access addr width with
    | .ok r => .next (memWrite (s.setHost rest) r v)
    | .error e => .refused e
  | .reset :: rest => .next (resetEvent (s.setHost rest))
  | .poll :: rest => .next (pollRead s rest)

end Sys2Proof.Machine
end

