-- ==== Sys2Proof/Machine/Engine.lean ====
section
/-! DEFINITION. The engine step (10_state.md R22) and which agent moves (20_memory.md R62, 70_reset_and_hazards.md R252). -/

namespace Sys2Proof.Machine

/-- `BUSY <- 0` after `Execute` (R22). -/
def clearBusy : Host.Outcome State Fault Refusal → Host.Outcome State Fault Refusal
  | .next s => .next (s.setBusy false)
  | .fault r => .fault r
  | .refused r => .refused r

/-- `Execute(CMDL)` (30_encoding.md R85): an illegal word raises ILLEGAL, a legal one is performed. -/
def execute (s : State) : Host.Outcome State Fault Refusal :=
  match decode s.cmdl with
  | .ok i => exec i s
  | .error _ => cmdError ErrCode.illegal s

/-- `EngineStep` (R22): the latched command as one atomic transition, then `BUSY <- 0`. -/
def engineStep (s : State) : Host.Outcome State Fault Refusal := clearBusy (execute s)

/-- Which agent moves next. The engine can move exactly when BUSY = 1 (R22), the host while its program has an access left.
Where both can, the interleaving decides (R62: a point the model leaves open): the head of `turns`, and the engine once
`turns` is used up, which is R252's weak fairness. Log entry 4. -/
def nextAgent (s : State) : Option Agent :=
  match s.busy, s.host, s.turns with
  | false, [], _ => none
  | false, _ :: _, _ => some .host
  | true, [], _ => some .engine
  | true, _ :: _, [] => some .engine
  | true, _ :: _, a :: _ => some a

/-- A step taken while BUSY = 1 uses up one turn. -/
def takeTurn (s : State) : State := if s.busy then s.setTurns s.turns.tail else s

/-- The move of the agent whose turn it is; with none able to move the engine is idle and keeps all its state
(60_exceptions.md R224). -/
def move (s : State) : Host.Outcome State Fault Refusal :=
  match nextAgent s with
  | some .engine => engineStep (takeTurn s)
  | some .host => hostStep (takeTurn s)
  | none => .next s

/-- A command word latched and the engine's turn next: what a CMD write of `w` accepted now leads to (20_memory.md R55), with
the engine step as the very next step. Log entry 6. -/
def latchNext (s : State) (w : Word) : State :=
  ((s.setCmdl w).setBusy true).setTurns (.engine :: s.turns)

end Sys2Proof.Machine
end

