-- ==== Sys2Proof/Machine/HostProgram.lean ====
section
/-! DEFINITION. The host's transaction syntax and its pseudo-operations (30_encoding.md R86, R87) as lists of accesses. -/

namespace Sys2Proof.Machine

/-- `RD <reg>` (R86). -/
def rd (r : Reg) : HostOp := .read r.addr 4

/-- `WR <reg>, <v>` (R86). -/
def wr (r : Reg) (v : Word) : HostOp := .write r.addr 4 v

/-- `CMD <m> [r]` (R87). -/
def cmdOp (i : Instr) : HostOp := wr .cmd (encode i)

/-- `RUN <m> [r]` (R87). -/
def runOps (i : Instr) : List HostOp := [cmdOp i, .poll]

/-- `LOADKEY k0..k15` (R87). -/
def loadKeyOps (k : Block) : List HostOp :=
  [wr (.key 0) (blockWord k 0), wr (.key 1) (blockWord k 1), wr (.key 2) (blockWord k 2), wr (.key 3) (blockWord k 3)]

/-- `LOADBLK b0..b15` (R87). -/
def loadBlkOps (b : Block) : List HostOp :=
  [wr (.state 0) (blockWord b 0), wr (.state 1) (blockWord b 1), wr (.state 2) (blockWord b 2), wr (.state 3) (blockWord b 3)]

/-- `READBLK` (R87). -/
def readBlkOps : List HostOp := [rd (.state 0), rd (.state 1), rd (.state 2), rd (.state 3)]

end Sys2Proof.Machine
end

