-- ==== Sys2Proof/Machine/Step.lean ====
section
/-! DEFINITION. One step of the whole machine: one host access or one engine step (00_scope.md R13). -/

namespace Sys2Proof.Machine

/-- One step (R13, R22, R62). -/
def step (s : State) : Host.Outcome State Fault Refusal := move s

/-- The state with a command word where the engine takes its next command, the command latch, so that the very next step
executes it. Log entry 6. -/
def State.withFetchWord (s : State) (nbits w : Nat) : State := latchNext s (BitVec.ofNat 32 (w % 2 ^ nbits))

end Sys2Proof.Machine
end

