-- ==== Sys2Proof/Safety.lean ====
section
/-! DEFINITION. The terms claims about the machine use: what holds of a state in every run, which host programs are within
the rules, and the field-theoretic readings of the arithmetic the spec gives beside its loops. -/

namespace Sys2Proof.Machine

/-! ### What holds in every run -/

/-- ERR is a code the engine produces: 3..7 never are (10_state.md R27, 60_exceptions.md R210). -/
def State.ErrLegal (s : State) : Prop := s.err.toNat ≤ 2

/-- While KSV = 1 the round-key store is the expansion of its own round key 0 (10_state.md R26, R35; 43_key_schedule.md
R176: round key 0 is the key). -/
def State.ScheduleExpanded (s : State) : Prop :=
  s.ksv = true → s.rk = expandKey (store (roundKeyMatrix s.rk 0))

/-- The invariant of the machine. -/
def State.Inv (s : State) : Prop := s.ErrLegal ∧ s.ScheduleExpanded

/-! ### Host programs -/

/-- A line of a host program whose access is 32 bits wide, aligned and to a mapped register (20_memory.md R52). -/
def HostOp.legal : HostOp → Bool
  | .read addr width => (access addr width).toBool
  | .write addr width _ => (access addr width).toBool
  | .reset => true
  | .poll => true

/-- The registers whose writes are dropped while BUSY = 1 (R58). -/
def protectedReg : Reg → Bool
  | .cmd => true
  | .status => false
  | .opa => true
  | .opb => true
  | .res => false
  | .key _ => true
  | .state _ => true
  | .rkw _ => false

/-- Whether an access writes a protected register. -/
def HostOp.writesProtected : HostOp → Bool
  | .write addr width _ => match access addr width with
    | .ok r => protectedReg r
    | .error _ => false
  | .read _ _ => false
  | .reset => false
  | .poll => false

/-- Whether an access writes CMD. -/
def HostOp.writesCmd : HostOp → Bool
  | .write addr width _ => match access addr width with
    | .ok r => r == .cmd
    | .error _ => false
  | .read _ _ => false
  | .reset => false
  | .poll => false

/-- Whether an access reads a register that returns BUSY_READ while BUSY = 1. -/
def HostOp.readsHidden : HostOp → Bool
  | .read addr width => match access addr width with
    | .ok r => hiddenWhileBusy r
    | .error _ => false
  | .write _ _ _ => false
  | .reset => false
  | .poll => false

/-- The busy rule R250 sets a host (70_reset_and_hazards.md): from a CMD write to the POLL after it (or a reset) it writes
no protected register and reads no register whose value is BUSY_READ. `pending` says that a CMD write has not been polled yet. -/
def respectsBusy : (pending : Bool) → List HostOp → Bool
  | _, [] => true
  | pending, op :: rest =>
    !(pending && (op.writesProtected || op.readsHidden)) &&
      respectsBusy
        (match op with
          | .poll => false
          | .reset => false
          | .read _ _ => pending
          | .write _ _ _ => pending || op.writesCmd)
        rest

/-- Every CMD write is followed at once by POLL, as RUN writes it (30_encoding.md R87). -/
def runForm : List HostOp → Bool
  | [] => true
  | op :: rest => (!op.writesCmd || rest.head? == some .poll) && runForm rest

/-! ### Readings of the arithmetic -/

/-- The product of two polynomials over GF(2), a coefficient a bit (40_gf_arith.md R100): the XOR of the copies of `a`
shifted by the set bits of `b`. -/
def polyMul (a b : BitVec 16) : BitVec 16 :=
  (List.range 16).foldl (fun p k => if b.getLsbD k then p ^^^ (a <<< k) else p) 0

/-- The affine map of the S-box's construction (41_sbox.md R121). -/
def sboxAffine (x : Byte) : Byte :=
  x ^^^ x.rotateLeft 1 ^^^ x.rotateLeft 2 ^^^ x.rotateLeft 3 ^^^ x.rotateLeft 4 ^^^ 0x63

/-- The commands ENCRYPT stands for, one transform each (44_cipher.md R190, 60_exceptions.md R223). -/
def encryptCommands : List Instr :=
  [.addRoundKey 0]
    ++ ([1, 2, 3, 4, 5, 6, 7, 8, 9] : List (BitVec 4)).flatMap
        (fun r => [.subBytes, .shiftRows, .mixColumns, .addRoundKey r])
    ++ [.subBytes, .shiftRows, .addRoundKey 10]

/-- The commands DECRYPT stands for, one transform each (44_cipher.md R191, 60_exceptions.md R223). -/
def decryptCommands : List Instr :=
  [.addRoundKey 10, .invShiftRows, .invSubBytes]
    ++ ([9, 8, 7, 6, 5, 4, 3, 2, 1] : List (BitVec 4)).flatMap
        (fun r => [.addRoundKey r, .invMixColumns, .invShiftRows, .invSubBytes])
    ++ [.addRoundKey 0]

/-- Commands performed one after another, stopping at the first that gives no next state. -/
def execAll : List Instr → State → Host.Outcome State Fault Refusal
  | [], s => .next s
  | i :: rest, s => match exec i s with
    | .next t => execAll rest t
    | .fault r => .fault r
    | .refused r => .refused r

end Sys2Proof.Machine
end

