-- ==== Sys2Proof/Certificates/Slice0/Obligations.lean ====
section
/-! DEFINITION. The statements about the model, from the spec's rules, file by file. A rule's number in a docstring is the
rule of spec/ the statement formalises. `takeTurn s` is `s` with one turn used up if BUSY = 1 (log entry 4). -/

open Sys2Proof Sys2Proof.Machine

/-! ### Encoding (30_encoding.md) -/

/-- Command words of R82, written out bit by bit from its map, decode to their commands. -/
def Obligations.TableWordsDecodeToTheirCommands : Prop :=
  decode 0x00000000 = .ok .nop ∧ decode 0x00000003 = .ok .gfMul ∧ decode 0x00000005 = .ok .invSbox ∧
  decode 0x00000010 = .ok .subBytes ∧ decode 0x00000015 = .ok .invMixColumns ∧
  decode 0x00000316 = .ok (.addRoundKey 3) ∧ decode 0x00000A16 = .ok (.addRoundKey 10) ∧
  decode 0x00000020 = .ok .expandKey ∧ decode 0x00000030 = .ok .encrypt ∧ decode 0x00000031 = .ok .decrypt

/-- Every well-formed command, with every round index, is what its own word decodes to (R82, R83). -/
def Obligations.DecodeOfEncodeIsTheCommand : Prop :=
  ∀ i : Instr, i.wf = true → decode (encode i) = .ok i

/-- A word that decodes at all is the word of the well-formed command it decodes to: no two words share a command. -/
def Obligations.DecodedWordIsTheCommandsOnlyWord : Prop :=
  ∀ (w : Word) (i : Instr), decode w = .ok i → i.wf = true ∧ encode i = w

/-- R83: a word is legal exactly if a row's OPC is its bits 7:0, its bits 31:12 are 0, and its RND is at most 10 for
ADD_ROUND_KEY and 0 for every other row; the same in match/mask form; and the row it selects is the one with its OPC, with its
RND as the operand. -/
def Obligations.LegalWordsAreTheMatchingWords : Prop :=
  ∀ w : Word,
    ((∃ i, decode w = .ok i) ↔
      (w.extractLsb' 0 8).toNat ∈
          [0x00, 0x01, 0x02, 0x03, 0x04, 0x05, 0x10, 0x11, 0x12, 0x13, 0x14, 0x15, 0x16, 0x20, 0x30, 0x31] ∧
        w.extractLsb' 12 20 = 0 ∧
        (if w.extractLsb' 0 8 = 0x16 then (w.extractLsb' 8 4).toNat ≤ 10 else w.extractLsb' 8 4 = 0)) ∧
    ((∃ i, decode w = .ok i) ↔
      (∃ m ∈ ([0x00, 0x01, 0x02, 0x03, 0x04, 0x05, 0x10, 0x11, 0x12, 0x13, 0x14, 0x15, 0x20, 0x30, 0x31] : List Word),
          w &&& 0xFFFFFFFF = m) ∨
        (w &&& 0xFFFFF0FF = 0x00000016 ∧ (w.extractLsb' 8 4).toNat ≤ 10)) ∧
    (∀ i, decode w = .ok i → i.opcode = w.extractLsb' 0 8 ∧ i.rnd = w.extractLsb' 8 4)

/-! ### The engine step (10_state.md, 30_encoding.md, 60_exceptions.md) -/

/-- When the latched word decodes to a command and it is the engine's turn, a step is `exec` of that command with one turn
used up, and BUSY cleared after it (R22, R85). The turns are the model's choice (log entry 4). -/
def Obligations.StepRunsTheLatchedCommand : Prop :=
  ∀ (s : State) (i : Instr), nextAgent s = some .engine → decode s.cmdl = .ok i →
    step s = match exec i { s with turns := s.turns.tail } with
      | .next t => .next { t with busy := false }
      | .fault r => .fault r
      | .refused r => .refused r

/-- The engine step is enabled exactly when BUSY = 1, and it is the only agent that can move when the host has no access
left (R22). With accesses left the head of the turns, the model's choice of the open interleaving, decides (log entry 4). -/
def Obligations.EngineMovesOnlyWhileBusy : Prop :=
  ∀ s : State, (nextAgent s = some .engine → s.busy = true) ∧
    (s.busy = true → s.host = [] → nextAgent s = some .engine) ∧
    (s.busy = true → s.host ≠ [] → ∀ a : Agent, nextAgent { s with turns := a :: s.turns } = some a)

/-- R211: the engine step always ends in a next state; ERR is ILLEGAL exactly if the latched word has a reserved bit set, an
opcode not in R82, RND > 10 for OPC 0x16 or RND ≠ 0 for another; else NOKEY exactly if OPC is 0x16, 0x30 or 0x31 and
KSV = 0; else NONE. -/
def Obligations.ErrorCausesAreExactlyIllegalAndNoKey : Prop :=
  ∀ s : State, ∃ t : State, engineStep s = .next t ∧
    t.err =
      if s.cmdl.extractLsb' 12 20 ≠ 0 ∨
          (s.cmdl.extractLsb' 0 8).toNat ∉
            [0x00, 0x01, 0x02, 0x03, 0x04, 0x05, 0x10, 0x11, 0x12, 0x13, 0x14, 0x15, 0x16, 0x20, 0x30, 0x31] ∨
          (s.cmdl.extractLsb' 0 8 = 0x16 ∧ 10 < (s.cmdl.extractLsb' 8 4).toNat) ∨
          (s.cmdl.extractLsb' 0 8 ≠ 0x16 ∧ s.cmdl.extractLsb' 8 4 ≠ 0) then 1
      else if (s.cmdl.extractLsb' 0 8).toNat ∈ [0x16, 0x30, 0x31] ∧ s.ksv = false then 2
      else 0

/-- R212: an engine step that reports an error changes ERR and BUSY and nothing else. -/
def Obligations.CommandErrorHasNoPartialEffect : Prop :=
  ∀ s t : State, engineStep s = .next t → t.err ≠ 0 → t = { s with err := t.err, busy := false }

/-- No engine step changes a host-written operand, the key, OVR, the latch or the host's side, and every engine step clears
BUSY (R22, R28, R29, R30, R32). -/
def Obligations.EngineStepFrame : Prop :=
  ∀ s t : State, engineStep s = .next t →
    t = { s with busy := false, err := t.err, res := t.res, state := t.state, rk := t.rk, ksv := t.ksv }

/-- What changes RK, KSV and ERR: a step changes a word of RK, or sets KSV, only by executing EXPAND_KEY or, for RK, by a reset;
it clears KSV only by a reset; it changes ERR only as an engine step or a reset, which leaves it 0 (R26, R27, R35). -/
def Obligations.RkKsvErrChangeOnlyByTheirWriters : Prop :=
  ∀ s t : State, step s = .next t →
    (t.rk ≠ s.rk → (nextAgent s = some .engine ∧ decode s.cmdl = .ok .expandKey) ∨
      (nextAgent s = some .host ∧ s.host.head? = some .reset)) ∧
    (s.ksv = false → t.ksv = true → nextAgent s = some .engine ∧ decode s.cmdl = .ok .expandKey) ∧
    (s.ksv = true → t.ksv = false → nextAgent s = some .host ∧ s.host.head? = some .reset) ∧
    (t.err ≠ s.err → nextAgent s = some .engine ∨ (nextAgent s = some .host ∧ s.host.head? = some .reset ∧ t.err = 0))

/-- OVR is set only by a host write to CMD, OPA, OPB, KEY0..3 or STATE0..3 while BUSY = 1, and cleared only by a host write to
STATUS with bit 8 = 1 or by a reset (R28). -/
def Obligations.OvrSetByDroppedWriteClearedByStatusOrReset : Prop :=
  ∀ s t : State, step s = .next t →
    (s.ovr = false → t.ovr = true →
      nextAgent s = some .host ∧ s.busy = true ∧
        ∃ r v rest, s.host = .write (Reg.addr r) 4 v :: rest ∧
          (r = .cmd ∨ r = .opa ∨ r = .opb ∨ (∃ j, r = .key j) ∨ (∃ c, r = .state c))) ∧
    (s.ovr = true → t.ovr = false →
      nextAgent s = some .host ∧
        (s.host.head? = some .reset ∨
          ∃ v rest, s.host = .write 0x004 4 v :: rest ∧ v.getLsbD 8 = true))

/-! ### GF(2^8) (40_gf_arith.md) -/

/-- R104: the laws of `gf_mul`. -/
def Obligations.GfMulLaws : Prop :=
  ∀ a b c : Byte, gfMul a b = gfMul b a ∧ gfMul a (gfAdd b c) = gfAdd (gfMul a b) (gfMul a c) ∧
    gfMul a 1 = a ∧ gfMul a 0 = 0

/-- `gf_mul` is the product of the two polynomials reduced modulo x^8+x^4+x^3+x+1 (R100): the product is a multiple of 0x11B
plus the result, and the result has degree below 8. -/
def Obligations.GfMulIsTheReducedPolynomialProduct : Prop :=
  ∀ a b : Byte, ∃ q : BitVec 7,
    polyMul (a.zeroExtend 16) (b.zeroExtend 16) = polyMul (q.zeroExtend 16) 0x011B ^^^ (gfMul a b).zeroExtend 16

/-- `gf_mul(a, 2) = xtime(a)`, associativity, and exactly one inverse for every non-zero byte and none for 0 (R105). -/
def Obligations.GfMulIsAssociativeWithInverses : Prop :=
  (∀ a : Byte, gfMul a 2 = xtime a) ∧
  (∀ a b c : Byte, gfMul (gfMul a b) c = gfMul a (gfMul b c)) ∧
  (∀ a : Byte, a ≠ 0 → ∃ b, gfMul a b = 1 ∧ ∀ c, gfMul a c = 1 → c = b) ∧
  (∀ b : Byte, gfMul 0 b ≠ 1)

/-- R106: GF_ADD has the word 0x00000001 and, in every state, sets RES to OPA ^ OPB and ERR to NONE and changes nothing else;
as an engine step it clears BUSY; with RND ≠ 0 or reserved bits set it is ILLEGAL. -/
def Obligations.GfAddCommand : Prop :=
  encode .gfAdd = 0x00000001 ∧
  (∀ s : State, exec .gfAdd s = .next { s with res := s.opa ^^^ s.opb, err := 0 }) ∧
  (∀ s : State, s.cmdl = 0x00000001 →
    engineStep s = .next { s with res := s.opa ^^^ s.opb, err := 0, busy := false }) ∧
  (∀ s : State, s.cmdl.extractLsb' 0 8 = 0x01 → s.cmdl ≠ 0x00000001 →
    engineStep s = .next { s with err := 1, busy := false }) ∧
  (∀ a : Byte, gfAdd a a = 0 ∧ gfAdd a 0 = a) ∧ gfAdd 0x57 0x83 = 0xD4

/-- R107: GF_XTIME has the word 0x00000002 and, in every state, sets RES to OPA shifted left by one, with 0x1B XORed in if the
bit shifted out is 1, and ERR to NONE and changes nothing else; its other words are ILLEGAL. -/
def Obligations.GfXtimeCommand : Prop :=
  encode .gfXtime = 0x00000002 ∧
  (∀ s : State, exec .gfXtime s =
    .next { s with
      res := if 128 ≤ s.opa.toNat then BitVec.ofNat 8 (2 * s.opa.toNat) ^^^ 0x1B else BitVec.ofNat 8 (2 * s.opa.toNat)
      err := 0 }) ∧
  (∀ s : State, s.cmdl.extractLsb' 0 8 = 0x02 → s.cmdl ≠ 0x00000002 →
    engineStep s = .next { s with err := 1, busy := false }) ∧
  xtime 0x00 = 0x00 ∧ xtime 0x80 = 0x1B ∧ xtime 0xFF = 0xE5 ∧ xtime 0x7F = 0xFE ∧ xtime 0x57 = 0xAE

/-- R108 with R103's second form: GF_MUL has the word 0x00000003 and, in every state, sets RES to the XOR of `xtime^k(OPA)`
over the set bits k of OPB and ERR to NONE and changes nothing else; its other words are ILLEGAL. -/
def Obligations.GfMulCommand : Prop :=
  encode .gfMul = 0x00000003 ∧
  (∀ s : State, exec .gfMul s =
    .next { s with
      res := (((List.range 8).filter fun k => s.opb.getLsbD k).map fun k => xtime^[k] s.opa).foldl (· ^^^ ·) 0
      err := 0 }) ∧
  (∀ s : State, s.cmdl.extractLsb' 0 8 = 0x03 → s.cmdl ≠ 0x00000003 →
    engineStep s = .next { s with err := 1, busy := false }) ∧
  (∀ a : Byte, gfMul a 0 = 0 ∧ gfMul 0 a = 0 ∧ gfMul a 1 = a ∧ gfMul a 2 = xtime a) ∧
  gfMul 0xFF 0xFF = 0x13 ∧ gfMul 0x03 0x03 = 0x05 ∧ gfMul 0x57 0x13 = 0xFE

/-! ### S-box (41_sbox.md) -/

/-- R123: the two tables undo each other. -/
def Obligations.SboxTablesUndoEachOther : Prop :=
  ∀ b : Byte, invSubByte (subByte b) = b ∧ subByte (invSubByte b) = b

/-- The construction of the S-box given in R121: the affine map of the multiplicative inverse, and of 0 for 0. -/
def Obligations.SboxIsAffineOfTheInverse : Prop :=
  (∀ a b : Byte, gfMul a b = 1 → subByte a = sboxAffine b) ∧ subByte 0 = sboxAffine 0

/-- R124: SBOX has the word 0x00000004 and, in every state, sets RES to `sub_byte(OPA)` and ERR to NONE and changes nothing
else; its other words are ILLEGAL; the S-box has no fixed point and no opposite fixed point. -/
def Obligations.SboxCommand : Prop :=
  encode .sbox = 0x00000004 ∧
  (∀ s : State, exec .sbox s = .next { s with res := subByte s.opa, err := 0 }) ∧
  (∀ s : State, s.cmdl.extractLsb' 0 8 = 0x04 → s.cmdl ≠ 0x00000004 →
    engineStep s = .next { s with err := 1, busy := false }) ∧
  (∀ b : Byte, subByte b ≠ b ∧ subByte b ≠ b ^^^ 0xFF) ∧
  subByte 0x00 = 0x63 ∧ subByte 0xFF = 0x16 ∧ subByte 0x53 = 0xED

/-- R125: INV_SBOX has the word 0x00000005 and, in every state, sets RES to `inv_sub_byte(OPA)` and ERR to NONE and changes
nothing else; its other words are ILLEGAL; INV_SBOX after SBOX, with RES copied back to OPA, returns the byte. -/
def Obligations.InvSboxCommand : Prop :=
  encode .invSbox = 0x00000005 ∧
  (∀ s : State, exec .invSbox s = .next { s with res := invSubByte s.opa, err := 0 }) ∧
  (∀ s : State, s.cmdl.extractLsb' 0 8 = 0x05 → s.cmdl ≠ 0x00000005 →
    engineStep s = .next { s with err := 1, busy := false }) ∧
  (∀ s : State, ∃ t u : State, exec .sbox s = .next t ∧ exec .invSbox { t with opa := t.res } = .next u ∧ u.res = s.opa) ∧
  invSubByte 0x63 = 0x00 ∧ invSubByte 0x00 = 0x52 ∧ invSubByte 0xED = 0x53

/-! ### Transforms (42_transforms.md, 10_state.md) -/

/-- R34: `Load` puts byte `i` at row `i mod 4`, column `i / 4`, `Store` reads it back, and each undoes the other; column `c` as
a host word has the block's bytes 4c to 4c+3, the first in its top byte. -/
def Obligations.LoadAndStoreAreColumnMajor : Prop :=
  (∀ (b : Block) (i : Fin 16), entry (load b) ⟨i.val % 4, by omega⟩ ⟨i.val / 4, by omega⟩ = b[i]) ∧
  (∀ (m : StateMatrix) (i : Fin 16), (store m)[i] = entry m ⟨i.val % 4, by omega⟩ ⟨i.val / 4, by omega⟩) ∧
  (∀ b : Block, store (load b) = b) ∧ (∀ m : StateMatrix, load (store m) = m) ∧
  (∀ (b : Block) (c k : Fin 4), byteOf k (stateWord (load b) c) = b[4 * c.val + k.val])

/-- R149: the transforms and their inverses undo each other, AddRoundKey undoes itself, and byte substitutions commute with
row shifts. -/
def Obligations.TransformsUndoEachOtherAndCommute : Prop :=
  ∀ (s : StateMatrix) (w : Schedule) (rnd : Fin 11),
    invShiftRows (shiftRows s) = s ∧ shiftRows (invShiftRows s) = s ∧ invMixColumns (mixColumns s) = s ∧
    invSubBytes (subBytes s) = s ∧ addRoundKey (addRoundKey s w rnd) w rnd = s ∧
    subBytes (shiftRows s) = shiftRows (subBytes s) ∧ subBytes (invShiftRows s) = invShiftRows (subBytes s) ∧
    invSubBytes (shiftRows s) = shiftRows (invSubBytes s) ∧
    invSubBytes (invShiftRows s) = invShiftRows (invSubBytes s)

/-- R150: SUB_BYTES has the word 0x00000010 and, in every state (KSV or not), substitutes each byte of STATE, sets ERR to NONE
and changes nothing else; its other words are ILLEGAL. -/
def Obligations.SubBytesCommand : Prop :=
  encode .subBytes = 0x00000010 ∧
  (∀ s : State, ∃ t : State, exec .subBytes s = .next t ∧ t = { s with state := t.state, err := 0 } ∧
    ∀ r c, entry t.state r c = subByte (entry s.state r c)) ∧
  (∀ s : State, s.cmdl.extractLsb' 0 8 = 0x10 → s.cmdl ≠ 0x00000010 →
    engineStep s = .next { s with err := 1, busy := false }) ∧
  subBytes (load (Vector.replicate 16 0x00)) = load (Vector.replicate 16 0x63) ∧
  store (subBytes (load #v[0x00, 0x01, 0x02, 0x03, 0x04, 0x05, 0x06, 0x07, 0x08, 0x09, 0x0a, 0x0b, 0x0c, 0x0d, 0x0e, 0x0f])) =
    #v[0x63, 0x7c, 0x77, 0x7b, 0xf2, 0x6b, 0x6f, 0xc5, 0x30, 0x01, 0x67, 0x2b, 0xfe, 0xd7, 0xab, 0x76]

/-- R151: INV_SUB_BYTES has the word 0x00000011 and, in every state, substitutes each byte of STATE by the inverse table, sets
ERR to NONE and changes nothing else; its other words are ILLEGAL; it restores STATE after SUB_BYTES. -/
def Obligations.InvSubBytesCommand : Prop :=
  encode .invSubBytes = 0x00000011 ∧
  (∀ s : State, ∃ t : State, exec .invSubBytes s = .next t ∧ t = { s with state := t.state, err := 0 } ∧
    ∀ r c, entry t.state r c = invSubByte (entry s.state r c)) ∧
  (∀ s : State, s.cmdl.extractLsb' 0 8 = 0x11 → s.cmdl ≠ 0x00000011 →
    engineStep s = .next { s with err := 1, busy := false }) ∧
  (∀ s : State, execAll [.subBytes, .invSubBytes] s = .next { s with err := 0 }) ∧
  invSubBytes (load (Vector.replicate 16 0x63)) = load (Vector.replicate 16 0x00) ∧
  store (invSubBytes (load #v[0x00, 0x01, 0x02, 0x03, 0x04, 0x05, 0x06, 0x07, 0x08, 0x09, 0x0a, 0x0b, 0x0c, 0x0d, 0x0e, 0x0f])) =
    #v[0x52, 0x09, 0x6a, 0xd5, 0x30, 0x36, 0xa5, 0x38, 0xbf, 0x40, 0xa3, 0x9e, 0x81, 0xf3, 0xd7, 0xfb]

/-- R152: SHIFT_ROWS has the word 0x00000012 and, in every state, moves `s[r][(c + r) mod 4]` to row r, column c, sets ERR to
NONE and changes nothing else; its other words are ILLEGAL; row 0 and states of constant rows stay; four applications
restore STATE. -/
def Obligations.ShiftRowsCommand : Prop :=
  encode .shiftRows = 0x00000012 ∧
  (∀ s : State, ∃ t : State, exec .shiftRows s = .next t ∧ t = { s with state := t.state, err := 0 } ∧
    ∀ r c : Fin 4, entry t.state r c = entry s.state r (c + r)) ∧
  (∀ s : State, s.cmdl.extractLsb' 0 8 = 0x12 → s.cmdl ≠ 0x00000012 →
    engineStep s = .next { s with err := 1, busy := false }) ∧
  (∀ m : StateMatrix, ∀ c, entry (shiftRows m) 0 c = entry m 0 c) ∧
  (∀ m : StateMatrix, (∀ r c d, entry m r c = entry m r d) → shiftRows m = m) ∧
  (∀ s : State, execAll [.shiftRows, .shiftRows, .shiftRows, .shiftRows] s = .next { s with err := 0 }) ∧
  store (shiftRows (load #v[0x00, 0x01, 0x02, 0x03, 0x04, 0x05, 0x06, 0x07, 0x08, 0x09, 0x0a, 0x0b, 0x0c, 0x0d, 0x0e, 0x0f])) =
    #v[0x00, 0x05, 0x0a, 0x0f, 0x04, 0x09, 0x0e, 0x03, 0x08, 0x0d, 0x02, 0x07, 0x0c, 0x01, 0x06, 0x0b]

/-- R153: INV_SHIFT_ROWS has the word 0x00000013 and, in every state, moves `s[r][(c + 4 - r) mod 4]` to row r, column c, sets
ERR to NONE and changes nothing else; its other words are ILLEGAL; row 0 stays; it restores STATE after SHIFT_ROWS and
equals three SHIFT_ROWS. -/
def Obligations.InvShiftRowsCommand : Prop :=
  encode .invShiftRows = 0x00000013 ∧
  (∀ s : State, ∃ t : State, exec .invShiftRows s = .next t ∧ t = { s with state := t.state, err := 0 } ∧
    ∀ r c : Fin 4, entry t.state r c = entry s.state r (c - r)) ∧
  (∀ s : State, s.cmdl.extractLsb' 0 8 = 0x13 → s.cmdl ≠ 0x00000013 →
    engineStep s = .next { s with err := 1, busy := false }) ∧
  (∀ m : StateMatrix, ∀ c, entry (invShiftRows m) 0 c = entry m 0 c) ∧
  (∀ s : State, execAll [.shiftRows, .invShiftRows] s = .next { s with err := 0 } ∧
    execAll [.shiftRows, .shiftRows, .shiftRows] s = exec .invShiftRows s) ∧
  store (invShiftRows (load #v[0x00, 0x01, 0x02, 0x03, 0x04, 0x05, 0x06, 0x07, 0x08, 0x09, 0x0a, 0x0b, 0x0c, 0x0d, 0x0e, 0x0f])) =
    #v[0x00, 0x0d, 0x0a, 0x07, 0x04, 0x01, 0x0e, 0x0b, 0x08, 0x05, 0x02, 0x0f, 0x0c, 0x09, 0x06, 0x03]

/-- R154 with R145's form for one column: MIX_COLUMNS has the word 0x00000014 and, in every state, sets each column (a0, a1,
a2, a3) of STATE to (2a0^3a1^a2^a3, a0^2a1^3a2^a3, a0^a1^2a2^3a3, 3a0^a1^a2^2a3), with 2x = xtime(x) and 3x = xtime(x)^x,
sets ERR to NONE and changes nothing else; its other words are ILLEGAL; a column of four equal bytes stays. -/
def Obligations.MixColumnsCommand : Prop :=
  encode .mixColumns = 0x00000014 ∧
  (∀ s : State, ∃ t : State, exec .mixColumns s = .next t ∧ t = { s with state := t.state, err := 0 } ∧
    ∀ c : Fin 4, ∀ a0 a1 a2 a3 : Byte, s.state.get c = ⟨a0, a1, a2, a3⟩ →
      t.state.get c =
        ⟨xtime a0 ^^^ (xtime a1 ^^^ a1) ^^^ a2 ^^^ a3, a0 ^^^ xtime a1 ^^^ (xtime a2 ^^^ a2) ^^^ a3,
         a0 ^^^ a1 ^^^ xtime a2 ^^^ (xtime a3 ^^^ a3), (xtime a0 ^^^ a0) ^^^ a1 ^^^ a2 ^^^ xtime a3⟩) ∧
  (∀ s : State, s.cmdl.extractLsb' 0 8 = 0x14 → s.cmdl ≠ 0x00000014 →
    engineStep s = .next { s with err := 1, busy := false }) ∧
  (∀ (m : StateMatrix) (c : Fin 4) (a : Byte), m.get c = ⟨a, a, a, a⟩ → (mixColumns m).get c = ⟨a, a, a, a⟩) ∧
  (∀ (m : StateMatrix) (c : Fin 4), m.get c = ⟨0xdb, 0x13, 0x53, 0x45⟩ →
    (mixColumns m).get c = ⟨0x8e, 0x4d, 0xa1, 0xbc⟩) ∧
  store (mixColumns (load #v[0x00, 0x01, 0x02, 0x03, 0x04, 0x05, 0x06, 0x07, 0x08, 0x09, 0x0a, 0x0b, 0x0c, 0x0d, 0x0e, 0x0f])) =
    #v[0x02, 0x07, 0x00, 0x05, 0x06, 0x03, 0x04, 0x01, 0x0a, 0x0f, 0x08, 0x0d, 0x0e, 0x0b, 0x0c, 0x09]

/-- R155 with R146: INV_MIX_COLUMNS has the word 0x00000015 and, in every state, multiplies each column of STATE by Minv, sets
ERR to NONE and changes nothing else; its other words are ILLEGAL; a column of four equal bytes stays; it restores STATE
after MIX_COLUMNS. -/
def Obligations.InvMixColumnsCommand : Prop :=
  encode .invMixColumns = 0x00000015 ∧
  (∀ s : State, ∃ t : State, exec .invMixColumns s = .next t ∧ t = { s with state := t.state, err := 0 } ∧
    ∀ c : Fin 4, ∀ a0 a1 a2 a3 : Byte, s.state.get c = ⟨a0, a1, a2, a3⟩ →
      t.state.get c =
        ⟨gfMul 0x0e a0 ^^^ gfMul 0x0b a1 ^^^ gfMul 0x0d a2 ^^^ gfMul 0x09 a3,
         gfMul 0x09 a0 ^^^ gfMul 0x0e a1 ^^^ gfMul 0x0b a2 ^^^ gfMul 0x0d a3,
         gfMul 0x0d a0 ^^^ gfMul 0x09 a1 ^^^ gfMul 0x0e a2 ^^^ gfMul 0x0b a3,
         gfMul 0x0b a0 ^^^ gfMul 0x0d a1 ^^^ gfMul 0x09 a2 ^^^ gfMul 0x0e a3⟩) ∧
  (∀ s : State, s.cmdl.extractLsb' 0 8 = 0x15 → s.cmdl ≠ 0x00000015 →
    engineStep s = .next { s with err := 1, busy := false }) ∧
  (∀ (m : StateMatrix) (c : Fin 4) (a : Byte), m.get c = ⟨a, a, a, a⟩ → (invMixColumns m).get c = ⟨a, a, a, a⟩) ∧
  (∀ s : State, execAll [.mixColumns, .invMixColumns] s = .next { s with err := 0 }) ∧
  (∀ (m : StateMatrix) (c : Fin 4), m.get c = ⟨0x8e, 0x4d, 0xa1, 0xbc⟩ →
    (invMixColumns m).get c = ⟨0xdb, 0x13, 0x53, 0x45⟩) ∧
  store (invMixColumns (load #v[0x00, 0x01, 0x02, 0x03, 0x04, 0x05, 0x06, 0x07, 0x08, 0x09, 0x0a, 0x0b, 0x0c, 0x0d, 0x0e, 0x0f])) =
    #v[0x0a, 0x0f, 0x08, 0x0d, 0x0e, 0x0b, 0x0c, 0x09, 0x02, 0x07, 0x00, 0x05, 0x06, 0x03, 0x04, 0x01]

/-- ADD_ROUND_KEY r (R156 with R147, R148) has the word 0x16 | (r << 8); for r in 0..10 and KSV = 1 it XORs byte r of word
4·rnd + c of RK into row r, column c of STATE, sets ERR to NONE and changes nothing else; with KSV = 0 it sets ERR to NOKEY
and changes nothing else; as an engine step, a latched word with RND in 11..15, whatever KSV is, or with reserved bits set
sets ERR to ILLEGAL, clears BUSY and changes nothing else; the same r twice restores STATE; r = 0 makes a state equal to the
expanded key zero. The model's choice: `exec` of the term with r in 11..15, which the decoder never gives, sets ERR to
ILLEGAL and changes nothing else (log entry 8, DEDUCED). -/
def Obligations.AddRoundKeyCommand : Prop :=
  (∀ rnd : BitVec 4, encode (.addRoundKey rnd) = 0x00000016 ||| (rnd.zeroExtend 32 <<< 8)) ∧
  (∀ (s : State) (rnd : BitVec 4) (h : rnd.toNat ≤ 10), s.ksv = true →
    ∃ t : State, exec (.addRoundKey rnd) s = .next t ∧ t = { s with state := t.state, err := 0 } ∧
      ∀ r c : Fin 4, entry t.state r c = entry s.state r c ^^^ byteOf r s.rk[4 * rnd.toNat + c.val]) ∧
  (∀ (s : State) (rnd : BitVec 4), rnd.toNat ≤ 10 → s.ksv = false →
    exec (.addRoundKey rnd) s = .next { s with err := 2 }) ∧
  (∀ (s : State) (rnd : BitVec 4), 10 < rnd.toNat → exec (.addRoundKey rnd) s = .next { s with err := 1 }) ∧
  (∀ s : State, s.cmdl.extractLsb' 0 8 = 0x16 → (10 < (s.cmdl.extractLsb' 8 4).toNat ∨ s.cmdl.extractLsb' 12 20 ≠ 0) →
    engineStep s = .next { s with err := 1, busy := false }) ∧
  (∀ (s : State) (rnd : BitVec 4), rnd.toNat ≤ 10 → s.ksv = true →
    execAll [.addRoundKey rnd, .addRoundKey rnd] s = .next { s with err := 0 }) ∧
  (∀ (s : State) (k : Block), s.ksv = true → s.rk = expandKey k → s.state = load k →
    exec (.addRoundKey 0) s = .next { s with state := load (Vector.replicate 16 0), err := 0 }) ∧
  (∀ s : State, s.ksv = true →
    s.rk = expandKey #v[0x00, 0x01, 0x02, 0x03, 0x04, 0x05, 0x06, 0x07, 0x08, 0x09, 0x0a, 0x0b, 0x0c, 0x0d, 0x0e, 0x0f] →
    s.state = load #v[0x00, 0x01, 0x02, 0x03, 0x04, 0x05, 0x06, 0x07, 0x08, 0x09, 0x0a, 0x0b, 0x0c, 0x0d, 0x0e, 0x0f] →
    exec (.addRoundKey 1) s = .next { s with
      state := load #v[0xd6, 0xab, 0x76, 0xfe, 0xd6, 0xaa, 0x74, 0xfd, 0xd2, 0xaf, 0x72, 0xfa, 0xda, 0xa6, 0x78, 0xf1]
      err := 0 })

/-! ### Key schedule (43_key_schedule.md) -/

/-- R171, R172: RotWord moves each byte one place up and the first to the last place; SubWord substitutes each byte in place. -/
def Obligations.RotWordAndSubWordByBytes : Prop :=
  ∀ (w : Word) (k : Fin 4), byteOf k (rotWord w) = byteOf (k + 1) w ∧ byteOf k (subWord w) = subByte (byteOf k w)

/-- R173: the round constants by their construction, and the ten values. -/
def Obligations.RconTable : Prop :=
  rcon 1 = 0x01 ∧ (∀ j : Nat, 1 ≤ j → j ≤ 9 → rcon (j + 1) = xtime (rcon j)) ∧
  (List.range 10).map (fun j => rcon (j + 1)) = [0x01, 0x02, 0x04, 0x08, 0x10, 0x20, 0x40, 0x80, 0x1B, 0x36]

/-- R174 with R170: the 44 words of `ExpandKey(K)`: the key's bytes, then each word from the one before it and the one four
before it; the order of the rotation and the substitution does not matter. -/
def Obligations.ExpandKeyRecurrence : Prop :=
  ∀ k : Block,
    (∀ (j i : Fin 4), byteOf i (expandKey k)[j.val] = k[4 * j.val + i.val]) ∧
    (∀ (i : Nat) (_ : 4 ≤ i) (h : i < 44),
      (expandKey k)[i] =
        (expandKey k)[i - 4] ^^^
          if i % 4 = 0 then subWord (rotWord (expandKey k)[i - 1]) ^^^ (rcon (i / 4)).zeroExtend 32 <<< 24
          else (expandKey k)[i - 1]) ∧
    (∀ w : Word, subWord (rotWord w) = rotWord (subWord w))

/-- The first round key equals the key itself (R176). -/
def Obligations.FirstRoundKeyIsTheKey : Prop :=
  ∀ k : Block, store (roundKeyMatrix (expandKey k) 0) = k

/-- R177: EXPAND_KEY has the word 0x00000020 and, in every state, whatever KSV is, replaces RK by `ExpandKey` of the bytes of
KEY0..3 (whose words 0..3 are KEY0..3), sets KSV to 1 and ERR to NONE and changes nothing else; its other words are ILLEGAL
and leave RK and KSV; repeating it gives the same RK; with the rule's two examples. -/
def Obligations.ExpandKeyCommand : Prop :=
  encode .expandKey = 0x00000020 ∧
  (∀ s : State, ∃ t : State, exec .expandKey s = .next t ∧ t = { s with rk := t.rk, ksv := true, err := 0 } ∧
    ∃ k : Block, (∀ j i : Fin 4, k[4 * j.val + i.val] = byteOf i (s.key.get j)) ∧ t.rk = expandKey k ∧
      (∀ j : Fin 4, t.rk[j.val] = s.key.get j)) ∧
  (∀ s : State, s.cmdl.extractLsb' 0 8 = 0x20 → s.cmdl ≠ 0x00000020 →
    engineStep s = .next { s with err := 1, busy := false }) ∧
  (∀ s : State, execAll [.expandKey, .expandKey] s = exec .expandKey s) ∧
  (∀ s : State, s.key = ⟨0, 0, 0, 0⟩ → ∃ t : State, exec .expandKey s = .next t ∧
    t.rk[4] = 0x62636363 ∧ t.rk[5] = 0x62636363 ∧ t.rk[6] = 0x62636363 ∧ t.rk[7] = 0x62636363) ∧
  (∀ s : State, s.key = ⟨0x2b7e1516, 0x28aed2a6, 0xabf71588, 0x09cf4f3c⟩ → ∃ t : State, exec .expandKey s = .next t ∧
    t.rk[0] = 0x2b7e1516 ∧ t.rk[1] = 0x28aed2a6 ∧ t.rk[2] = 0xabf71588 ∧ t.rk[3] = 0x09cf4f3c ∧
    rotWord t.rk[3] = 0xcf4f3c09 ∧ subWord 0xcf4f3c09 = 0x8a84eb01 ∧ t.rk[4] = 0xa0fafe17 ∧
    t.rk[40] = 0xd014f9a8 ∧ t.rk[41] = 0xc9ee2589 ∧ t.rk[42] = 0xe13f0cc8 ∧ t.rk[43] = 0xb6630ca6)

/-! ### Cipher (44_cipher.md) -/

/-- R193: decryption undoes encryption under every key and, in the every-schedule form, under every schedule. -/
def Obligations.DecryptBlockUndoesEncryptBlock : Prop :=
  (∀ b k : Block, decryptBlock (encryptBlock b (expandKey k)) (expandKey k) = b) ∧
  (∀ (b : Block) (w : Schedule), decryptBlock (encryptBlock b w) w = b)

/-- ENCRYPT (R194 with R190) has the word 0x00000030; with KSV = 1 it sets STATE to what AddRoundKey 0, nine rounds of
SubBytes, ShiftRows, MixColumns, AddRoundKey, and a last round without MixColumns make of it, sets ERR to NONE and changes
nothing else; with KSV = 0 it sets ERR to NOKEY and changes nothing else; its other words are ILLEGAL; DECRYPT after it restores
STATE; with the rule's two known answers. -/
def Obligations.EncryptCommand : Prop :=
  encode .encrypt = 0x00000030 ∧
  (∀ s : State, s.ksv = true → ∃ t : State, exec .encrypt s = .next t ∧ t = { s with state := t.state, err := 0 } ∧
    ∃ m : Fin 10 → StateMatrix,
      m 0 = addRoundKey s.state s.rk 0 ∧
      (∀ rnd : Fin 9, m rnd.succ = addRoundKey (mixColumns (shiftRows (subBytes (m rnd.castSucc)))) s.rk rnd.castSucc.succ) ∧
      t.state = addRoundKey (shiftRows (subBytes (m 9))) s.rk 10) ∧
  (∀ s : State, s.ksv = false → exec .encrypt s = .next { s with err := 2 }) ∧
  (∀ s : State, s.cmdl.extractLsb' 0 8 = 0x30 → s.cmdl ≠ 0x00000030 →
    engineStep s = .next { s with err := 1, busy := false }) ∧
  (∀ s : State, s.ksv = true → execAll [.encrypt, .decrypt] s = .next { s with err := 0 }) ∧
  (∀ s : State, s.ksv = true → s.rk = expandKey (Vector.replicate 16 0) → s.state = load (Vector.replicate 16 0) →
    exec .encrypt s = .next { s with
      state := load #v[0x66, 0xe9, 0x4b, 0xd4, 0xef, 0x8a, 0x2c, 0x3b, 0x88, 0x4c, 0xfa, 0x59, 0xca, 0x34, 0x2b, 0x2e]
      err := 0 }) ∧
  (∀ s : State, s.ksv = true →
    s.rk = expandKey #v[0x00, 0x01, 0x02, 0x03, 0x04, 0x05, 0x06, 0x07, 0x08, 0x09, 0x0a, 0x0b, 0x0c, 0x0d, 0x0e, 0x0f] →
    s.state = load #v[0x00, 0x11, 0x22, 0x33, 0x44, 0x55, 0x66, 0x77, 0x88, 0x99, 0xaa, 0xbb, 0xcc, 0xdd, 0xee, 0xff] →
    exec .encrypt s = .next { s with
      state := load #v[0x69, 0xc4, 0xe0, 0xd8, 0x6a, 0x7b, 0x04, 0x30, 0xd8, 0xcd, 0xb7, 0x80, 0x70, 0xb4, 0xc5, 0x5a]
      err := 0 })

/-- DECRYPT (R195 with R191) has the word 0x00000031; with KSV = 1 it sets STATE to what AddRoundKey 10, InvShiftRows,
InvSubBytes, then for round 9 down to 1 AddRoundKey, InvMixColumns, InvShiftRows, InvSubBytes, then AddRoundKey 0 make of it,
sets ERR to NONE and changes nothing else; with KSV = 0 it sets ERR to NOKEY and changes nothing else; its other words are
ILLEGAL; ENCRYPT after it restores STATE; with the rule's known answer. -/
def Obligations.DecryptCommand : Prop :=
  encode .decrypt = 0x00000031 ∧
  (∀ s : State, s.ksv = true → ∃ t : State, exec .decrypt s = .next t ∧ t = { s with state := t.state, err := 0 } ∧
    ∃ m : Fin 10 → StateMatrix,
      m 9 = invSubBytes (invShiftRows (addRoundKey s.state s.rk 10)) ∧
      (∀ rnd : Fin 9, m rnd.castSucc =
        invSubBytes (invShiftRows (invMixColumns (addRoundKey (m rnd.succ) s.rk rnd.castSucc.succ)))) ∧
      t.state = addRoundKey (m 0) s.rk 0) ∧
  (∀ s : State, s.ksv = false → exec .decrypt s = .next { s with err := 2 }) ∧
  (∀ s : State, s.cmdl.extractLsb' 0 8 = 0x31 → s.cmdl ≠ 0x00000031 →
    engineStep s = .next { s with err := 1, busy := false }) ∧
  (∀ s : State, s.ksv = true → execAll [.decrypt, .encrypt] s = .next { s with err := 0 }) ∧
  (∀ s : State, s.ksv = true →
    s.rk = expandKey #v[0x00, 0x01, 0x02, 0x03, 0x04, 0x05, 0x06, 0x07, 0x08, 0x09, 0x0a, 0x0b, 0x0c, 0x0d, 0x0e, 0x0f] →
    s.state = load #v[0x69, 0xc4, 0xe0, 0xd8, 0x6a, 0x7b, 0x04, 0x30, 0xd8, 0xcd, 0xb7, 0x80, 0x70, 0xb4, 0xc5, 0x5a] →
    exec .decrypt s = .next { s with
      state := load #v[0x00, 0x11, 0x22, 0x33, 0x44, 0x55, 0x66, 0x77, 0x88, 0x99, 0xaa, 0xbb, 0xcc, 0xdd, 0xee, 0xff]
      err := 0 })

/-- R196: NOP has the word 0x00000000 and, in every state, sets ERR to NONE and changes nothing else; as an engine step it
clears BUSY, which its CMD write sets; its other words are ILLEGAL; after a failed ENCRYPT it leaves STATUS = 0. -/
def Obligations.NopCommand : Prop :=
  encode .nop = 0x00000000 ∧
  (∀ s : State, exec .nop s = .next { s with err := 0 }) ∧
  (∀ s : State, s.cmdl = 0x00000000 → engineStep s = .next { s with err := 0, busy := false }) ∧
  (∀ s : State, s.cmdl.extractLsb' 0 8 = 0x00 → s.cmdl ≠ 0x00000000 →
    engineStep s = .next { s with err := 1, busy := false }) ∧
  (∀ s : State, s.busy = false → (memWrite s .cmd 0x00000000).busy = true) ∧
  (∀ s : State, s.cmdl = 0x00000000 → s.ksv = false → s.ovr = false → s.err = 2 →
    ∃ t : State, engineStep s = .next t ∧ statusWord t = 0x00000000)

/-- With KSV = 1, ENCRYPT and DECRYPT do in one step what the single-transform commands do in forty: a host can reproduce
every intermediate state (R190, R191, R223). -/
def Obligations.CipherCommandsEqualSingleTransforms : Prop :=
  ∀ s : State, s.ksv = true →
    exec .encrypt s = execAll encryptCommands s ∧ exec .decrypt s = execAll decryptCommands s

/-- Only EXPAND_KEY reads the key registers, and the host cannot (R32, R254): any other command has the same effect with any
other key in KEY0..3 and changes neither the key, RK nor KSV; and with BUSY = 0, or of a register that is exact at any time,
no host read depends on KEY0..3. -/
def Obligations.KeyRegistersReadOnlyByExpandKey : Prop :=
  (∀ (i : Instr) (s t : State) (k : Quad Word), i ≠ .expandKey → exec i s = .next t →
    exec i { s with key := k } = .next { t with key := k } ∧ t.key = s.key ∧ t.rk = s.rk ∧ t.ksv = s.ksv) ∧
  (∀ (s : State) (k : Quad Word) (r : Reg), (s.busy = false ∨ hiddenWhileBusy r = false) →
    readValue { s with key := k } r = readValue s r)

/-! ### Host register space (20_memory.md, 10_state.md) -/

/-- The register map of R50: an access of 4 bytes at each listed address names its register, and every other address, and
every other width, names none (R52). -/
def Obligations.RegisterMap : Prop :=
  ∀ (addr width : Nat) (r : Reg), access addr width = .ok r ↔
    width = 4 ∧ match r with
      | .cmd => addr = 0x000
      | .status => addr = 0x004
      | .opa => addr = 0x008
      | .opb => addr = 0x00C
      | .res => addr = 0x010
      | .key j => addr = 0x020 + 4 * j.val
      | .state c => addr = 0x030 + 4 * c.val
      | .rkw i => addr = 0x100 + 4 * i.val

/-- R52: the model refuses a host read or write that is not 32 bits wide, aligned, and to a mapped address, and no other. -/
def Obligations.OnlyAlignedMappedWordAccessesHaveAStep : Prop :=
  ∀ (s : State) (addr width : Nat) (v : Word) (rest : List HostOp), nextAgent s = some .host →
    (s.host = .read addr width :: rest ∨ s.host = .write addr width v :: rest) →
    ((∃ t, step s = .next t) ↔ width = 4 ∧ addr % 4 = 0 ∧ ∃ r : Reg, r.addr = addr) ∧
    ((∃ e, step s = .refused e) ↔ ¬ (width = 4 ∧ addr % 4 = 0 ∧ ∃ r : Reg, r.addr = addr))

/-- R24: the bits of STATUS. -/
def Obligations.StatusLayout : Prop :=
  ∀ s : State,
    (statusWord s).getLsbD 0 = s.busy ∧ (statusWord s).getLsbD 1 = s.ksv ∧
    (statusWord s).extractLsb' 2 3 = s.err ∧ (statusWord s).getLsbD 8 = s.ovr ∧
    (statusWord s).extractLsb' 5 3 = 0 ∧ (statusWord s).extractLsb' 9 23 = 0

/-- What a host read returns (R54, R60), with no effect on the engine. While BUSY = 1 a read of RES, STATE or RKW returns a fresh
BUSY_READ draw (log entry 2); while BUSY = 0, and of the other registers at any time, the value is exact. Where the value goes,
`rdata`, is the model's own (log entry 5). -/
def Obligations.HostReadReturnsTheRegister : Prop :=
  ∀ (s : State) (r : Reg) (rest : List HostOp), nextAgent s = some .host → s.host = .read r.addr 4 :: rest →
    ∃ (v : Word) (d : Nat), step s = .next { takeTurn s with host := rest, rdata := some v, draws := d } ∧
      match r with
      | .cmd => v = 0 ∧ d = s.draws
      | .status =>
        v.toNat = s.ovr.toNat * 0x100 + s.err.toNat * 4 + s.ksv.toNat * 2 + s.busy.toNat ∧ d = s.draws
      | .opa => v.toNat = s.opa.toNat ∧ d = s.draws
      | .opb => v.toNat = s.opb.toNat ∧ d = s.draws
      | .res =>
        if s.busy then v = Config.busyRead s.draws 0x010 s.dataRegs ∧ d = s.draws + 1
        else v.toNat = s.res.toNat ∧ d = s.draws
      | .key _ => v = 0 ∧ d = s.draws
      | .state c =>
        if s.busy then v = Config.busyRead s.draws (0x030 + 4 * c.val) s.dataRegs ∧ d = s.draws + 1
        else (∀ k : Fin 4, byteOf k v = entry s.state k c) ∧ d = s.draws
      | .rkw i =>
        if s.busy then v = Config.busyRead s.draws (0x100 + 4 * i.val) s.dataRegs ∧ d = s.draws + 1
        else v = s.rk[i.val] ∧ d = s.draws

/-- R55: a host write to CMD while BUSY = 0 latches the word, unchecked, and sets BUSY; nothing else of the engine changes. -/
def Obligations.CmdWriteLatchesAnyWord : Prop :=
  ∀ (s : State) (v : Word) (rest : List HostOp), s.busy = false → s.host = .write 0x000 4 v :: rest →
    step s = .next { s with host := rest, cmdl := v, busy := true }

/-- R56: a host write while BUSY = 0 to a data register sets it, and no other state of the engine changes. -/
def Obligations.DataWritesSetTheirRegister : Prop :=
  ∀ (s : State) (v : Word) (rest : List HostOp), s.busy = false →
    (s.host = .write 0x008 4 v :: rest → step s = .next { s with host := rest, opa := v.extractLsb' 0 8 }) ∧
    (s.host = .write 0x00C 4 v :: rest → step s = .next { s with host := rest, opb := v.extractLsb' 0 8 }) ∧
    (∀ j : Fin 4, s.host = .write (0x020 + 4 * j.val) 4 v :: rest →
      ∃ t, step s = .next t ∧ t = { s with host := rest, key := t.key } ∧ t.key.get j = v ∧
        ∀ i, i ≠ j → t.key.get i = s.key.get i) ∧
    (∀ c : Fin 4, s.host = .write (0x030 + 4 * c.val) 4 v :: rest →
      ∃ t, step s = .next t ∧ t = { s with host := rest, state := t.state } ∧
        (∀ r : Fin 4, entry t.state r c = v.extractLsb' (24 - 8 * r.val) 8) ∧
        ∀ (r d : Fin 4), d ≠ c → entry t.state r d = entry s.state r d)

/-- R57: a host write to STATUS, at any value of BUSY, clears OVR if bit 8 is set and changes nothing else of the engine. -/
def Obligations.StatusWriteClearsOnlyOvr : Prop :=
  ∀ (s : State) (v : Word) (rest : List HostOp), nextAgent s = some .host → s.host = .write 0x004 4 v :: rest →
    step s = .next { takeTurn s with host := rest, ovr := if v.getLsbD 8 then false else s.ovr }

/-- R58: a host write to CMD, OPA, OPB, KEY0..3 or STATE0..3 while BUSY = 1 is dropped and sets OVR; the command in flight and
every register stay. -/
def Obligations.WritesWhileBusyAreDropped : Prop :=
  ∀ (s : State) (r : Reg) (v : Word) (rest : List HostOp), s.busy = true → nextAgent s = some .host →
    s.host = .write r.addr 4 v :: rest →
    (r = .cmd ∨ r = .opa ∨ r = .opb ∨ (∃ j, r = .key j) ∨ (∃ c, r = .state c)) →
    step s = .next { s with turns := s.turns.tail, host := rest, ovr := true }

/-- R59: a host write to RES or an RKW register, at any value of BUSY, has no effect and does not set OVR. -/
def Obligations.WritesToReadOnlyRegistersAreIgnored : Prop :=
  ∀ (s : State) (r : Reg) (v : Word) (rest : List HostOp), nextAgent s = some .host →
    s.host = .write r.addr 4 v :: rest → (r = .res ∨ ∃ i, r = .rkw i) →
    step s = .next { takeTurn s with host := rest }

/-! ### Reset and ordering (70_reset_and_hazards.md) -/

/-- A reset, at any time, clears BUSY, KSV, ERR and OVR and leaves STATUS = 0 and the engine idle, so that a latched command is
abandoned (R240, R242). The model's choice: CMDL and every data register hold the opaque `Config.resetData` of the draw's
number and of what the registers held (log entry 1, DESIGN CHOICE); nothing is said of its value. -/
def Obligations.ResetEventClearsControlAndDrawsData : Prop :=
  ∀ (s : State) (rest : List HostOp), nextAgent s = some .host → s.host = .reset :: rest →
    ∃ (t : State) (d : DataRegs), step s = .next t ∧ d = Config.resetData s.draws s.dataRegs ∧
      t = { takeTurn s with
        host := rest, draws := t.draws, busy := false, ksv := false, err := 0, ovr := false
        cmdl := d.cmdl, opa := d.opa, opb := d.opb, res := d.res, key := d.key, state := d.state, rk := d.rk } ∧
      statusWord t = 0 ∧ nextAgent t ≠ some .engine

/-- After the power-on reset BUSY = KSV = ERR = OVR = 0, STATUS reads 0, and the engine is idle: a step keeps all its state
(R240, R224). That no host access is pending then is the model's choice (log entry 3). -/
def Obligations.PowerOnStateIsIdle : Prop :=
  State.reset.busy = false ∧ State.reset.ksv = false ∧ State.reset.err = 0 ∧ State.reset.ovr = false ∧
  statusWord State.reset = 0 ∧ step State.reset = .next State.reset ∧
  ∀ s : State, s.busy = false → s.host = [] → step s = .next s

/-- BUSY = 1 ends (R252 with the turns of the state): a host program without refused accesses and resets lets the engine step
within as many steps as there are turns, and one. The turns are the model's choice (log entry 4). -/
def Obligations.BusyEnds : Prop :=
  ∀ s : State, s.busy = true → (∀ op ∈ s.host, op.legal = true ∧ op ≠ .reset) →
    ∃ k ≤ s.turns.length + 1, ∃ t, core.run k s = .next t ∧ t.busy = false

/-- POLL ends (R87, R252): whatever command is latched, a host at POLL gets past it, with BUSY = 0 shown, within two steps
more than there are turns. The turns and `rdata` are the model's choice (log entries 4, 5). -/
def Obligations.PollEnds : Prop :=
  ∀ (s : State) (rest : List HostOp), s.host = .poll :: rest →
    ∃ k ≤ s.turns.length + 2, ∃ t, core.run k s = .next t ∧ t.host = rest ∧ t.busy = false ∧
      ∃ v, t.rdata = some v ∧ showsBusy v = false

/-- A host program of legal accesses never stops the machine: every step has a next state and leaves such a program. -/
def Obligations.LegalHostNeverStops : Prop :=
  ∀ s : State, (∀ op ∈ s.host, op.legal = true) →
    ∃ t, step s = .next t ∧ ∀ op ∈ t.host, op.legal = true

/-- A host that keeps the busy rule never sees OVR and never reads BUSY_READ (R250): with respect for BUSY and OVR = 0, every
step leaves both so. -/
def Obligations.HostKeepingTheBusyRuleNeverOverruns : Prop :=
  ∀ s t : State, respectsBusy s.busy s.host = true → s.ovr = false → step s = .next t →
    respectsBusy t.busy t.host = true ∧ t.ovr = false ∧ (t.draws ≠ s.draws → s.host.head? = some .reset)

/-- Every interleaving of the engine with a host that follows each CMD write by POLL ends in the same state (R62, R63): there
is one final state, with the host's program done, that every list of turns reaches. The lists of turns are the model's form of
the interleaving (log entry 4), and the runs compared draw the same free values (log entries 1, 2). -/
def Obligations.InterleavingDoesNotMatterForPollingHosts : Prop :=
  ∀ s : State, s.busy = false → runForm s.host = true → (∀ op ∈ s.host, op.legal = true) →
    ∃ t : State, t.host = [] ∧ t.busy = false ∧
      ∀ turns : List Agent, ∃ (k : Nat) (left : List Agent),
        core.run k { s with turns := turns } = .next { t with turns := left }

/-- Every step keeps the invariant: ERR is 0, 1 or 2, and while KSV = 1 the round-key store is the expansion of its own first
round key (R26, R27, R35). -/
def Obligations.StepKeepsTheInvariant : Prop :=
  ∀ s t : State, s.Inv → step s = .next t → t.Inv

/-- The state after reset has the invariant. -/
def Obligations.ResetHasTheInvariant : Prop := State.reset.Inv
end

