-- ==== Sys2Proof/Laws/Decode.lean ====
section
/-! SUPPORT. A word is its three fields, and everything a lookup in the opcode map can give. -/

namespace Sys2Proof

theorem word_eq_fields (w : Word) : w = (rsvField w ++ rndField w) ++ opcField w := by
  apply BitVec.eq_of_getLsbD_eq
  intro i hi
  have h8 : ¬ i < 8 → 8 + (i - 8) = i := by omega
  simp only [BitVec.getLsbD_append, rsvField, rndField, opcField, BitVec.getLsbD_extractLsb']
  split
  · simp_all
  · split
    · simp [show i - 8 < 4 by omega, h8 (by omega)]
    · simp [show i - 8 - 4 < 20 by omega, show 12 + (i - 8 - 4) = i by omega]

/-- The opcodes of R82. -/
abbrev opcodes : List Nat :=
  [0x00, 0x01, 0x02, 0x03, 0x04, 0x05, 0x10, 0x11, 0x12, 0x13, 0x14, 0x15, 0x16, 0x20, 0x30, 0x31]

/-- The map gives no command for another opcode, and for one of these the command that has it; RND goes to
ADD_ROUND_KEY only. -/
theorem ofOpcode_cases (opc : Byte) (rnd : BitVec 4) :
    (ofOpcode opc rnd = none ∧ opc.toNat ∉ opcodes) ∨
    (∃ i, ofOpcode opc rnd = some i ∧ opc.toNat ∈ opcodes ∧ i.opcode = opc ∧
      (opc = 0x16 → i = .addRoundKey rnd) ∧ (opc ≠ 0x16 → i.wf = true ∧ i.rnd = 0)) := by
  unfold ofOpcode
  split
  case h_17 =>
    refine .inl ⟨rfl, ?_⟩
    simp only [opcodes, List.mem_cons, List.not_mem_nil]
    tauto
  all_goals
    rename_i h
    have h' : opc = BitVec.ofNat 8 opc.toNat := by simp
    rw [h] at h'
    subst h'
    refine .inr ⟨_, rfl, by decide, rfl, ?_, ?_⟩
    · first
        | exact fun _ => rfl
        | exact fun h => absurd h (by decide)
    · first
        | exact fun _ => ⟨rfl, rfl⟩
        | exact fun h => absurd rfl h

end Sys2Proof
end

