-- ==== Sys2Proof/Laws/State.lean ====
section
/-! SUPPORT. What each single-register update does to each field of the state. -/

namespace Sys2Proof.Machine

@[simp] theorem State.setCmdl_cmdl (s : State) (v : Word) : (s.setCmdl v).cmdl = v := rfl
@[simp] theorem State.setCmdl_busy (s : State) (v : Word) : (s.setCmdl v).busy = s.busy := rfl
@[simp] theorem State.setCmdl_ksv (s : State) (v : Word) : (s.setCmdl v).ksv = s.ksv := rfl
@[simp] theorem State.setCmdl_err (s : State) (v : Word) : (s.setCmdl v).err = s.err := rfl
@[simp] theorem State.setCmdl_ovr (s : State) (v : Word) : (s.setCmdl v).ovr = s.ovr := rfl
@[simp] theorem State.setCmdl_opa (s : State) (v : Word) : (s.setCmdl v).opa = s.opa := rfl
@[simp] theorem State.setCmdl_opb (s : State) (v : Word) : (s.setCmdl v).opb = s.opb := rfl
@[simp] theorem State.setCmdl_res (s : State) (v : Word) : (s.setCmdl v).res = s.res := rfl
@[simp] theorem State.setCmdl_key (s : State) (v : Word) : (s.setCmdl v).key = s.key := rfl
@[simp] theorem State.setCmdl_state (s : State) (v : Word) : (s.setCmdl v).state = s.state := rfl
@[simp] theorem State.setCmdl_rk (s : State) (v : Word) : (s.setCmdl v).rk = s.rk := rfl
@[simp] theorem State.setCmdl_host (s : State) (v : Word) : (s.setCmdl v).host = s.host := rfl
@[simp] theorem State.setCmdl_turns (s : State) (v : Word) : (s.setCmdl v).turns = s.turns := rfl
@[simp] theorem State.setCmdl_rdata (s : State) (v : Word) : (s.setCmdl v).rdata = s.rdata := rfl
@[simp] theorem State.setCmdl_draws (s : State) (v : Word) : (s.setCmdl v).draws = s.draws := rfl

@[simp] theorem State.setBusy_cmdl (s : State) (v : Bool) : (s.setBusy v).cmdl = s.cmdl := rfl
@[simp] theorem State.setBusy_busy (s : State) (v : Bool) : (s.setBusy v).busy = v := rfl
@[simp] theorem State.setBusy_ksv (s : State) (v : Bool) : (s.setBusy v).ksv = s.ksv := rfl
@[simp] theorem State.setBusy_err (s : State) (v : Bool) : (s.setBusy v).err = s.err := rfl
@[simp] theorem State.setBusy_ovr (s : State) (v : Bool) : (s.setBusy v).ovr = s.ovr := rfl
@[simp] theorem State.setBusy_opa (s : State) (v : Bool) : (s.setBusy v).opa = s.opa := rfl
@[simp] theorem State.setBusy_opb (s : State) (v : Bool) : (s.setBusy v).opb = s.opb := rfl
@[simp] theorem State.setBusy_res (s : State) (v : Bool) : (s.setBusy v).res = s.res := rfl
@[simp] theorem State.setBusy_key (s : State) (v : Bool) : (s.setBusy v).key = s.key := rfl
@[simp] theorem State.setBusy_state (s : State) (v : Bool) : (s.setBusy v).state = s.state := rfl
@[simp] theorem State.setBusy_rk (s : State) (v : Bool) : (s.setBusy v).rk = s.rk := rfl
@[simp] theorem State.setBusy_host (s : State) (v : Bool) : (s.setBusy v).host = s.host := rfl
@[simp] theorem State.setBusy_turns (s : State) (v : Bool) : (s.setBusy v).turns = s.turns := rfl
@[simp] theorem State.setBusy_rdata (s : State) (v : Bool) : (s.setBusy v).rdata = s.rdata := rfl
@[simp] theorem State.setBusy_draws (s : State) (v : Bool) : (s.setBusy v).draws = s.draws := rfl

@[simp] theorem State.setKsv_cmdl (s : State) (v : Bool) : (s.setKsv v).cmdl = s.cmdl := rfl
@[simp] theorem State.setKsv_busy (s : State) (v : Bool) : (s.setKsv v).busy = s.busy := rfl
@[simp] theorem State.setKsv_ksv (s : State) (v : Bool) : (s.setKsv v).ksv = v := rfl
@[simp] theorem State.setKsv_err (s : State) (v : Bool) : (s.setKsv v).err = s.err := rfl
@[simp] theorem State.setKsv_ovr (s : State) (v : Bool) : (s.setKsv v).ovr = s.ovr := rfl
@[simp] theorem State.setKsv_opa (s : State) (v : Bool) : (s.setKsv v).opa = s.opa := rfl
@[simp] theorem State.setKsv_opb (s : State) (v : Bool) : (s.setKsv v).opb = s.opb := rfl
@[simp] theorem State.setKsv_res (s : State) (v : Bool) : (s.setKsv v).res = s.res := rfl
@[simp] theorem State.setKsv_key (s : State) (v : Bool) : (s.setKsv v).key = s.key := rfl
@[simp] theorem State.setKsv_state (s : State) (v : Bool) : (s.setKsv v).state = s.state := rfl
@[simp] theorem State.setKsv_rk (s : State) (v : Bool) : (s.setKsv v).rk = s.rk := rfl
@[simp] theorem State.setKsv_host (s : State) (v : Bool) : (s.setKsv v).host = s.host := rfl
@[simp] theorem State.setKsv_turns (s : State) (v : Bool) : (s.setKsv v).turns = s.turns := rfl
@[simp] theorem State.setKsv_rdata (s : State) (v : Bool) : (s.setKsv v).rdata = s.rdata := rfl
@[simp] theorem State.setKsv_draws (s : State) (v : Bool) : (s.setKsv v).draws = s.draws := rfl

@[simp] theorem State.setErr_cmdl (s : State) (v : BitVec 3) : (s.setErr v).cmdl = s.cmdl := rfl
@[simp] theorem State.setErr_busy (s : State) (v : BitVec 3) : (s.setErr v).busy = s.busy := rfl
@[simp] theorem State.setErr_ksv (s : State) (v : BitVec 3) : (s.setErr v).ksv = s.ksv := rfl
@[simp] theorem State.setErr_err (s : State) (v : BitVec 3) : (s.setErr v).err = v := rfl
@[simp] theorem State.setErr_ovr (s : State) (v : BitVec 3) : (s.setErr v).ovr = s.ovr := rfl
@[simp] theorem State.setErr_opa (s : State) (v : BitVec 3) : (s.setErr v).opa = s.opa := rfl
@[simp] theorem State.setErr_opb (s : State) (v : BitVec 3) : (s.setErr v).opb = s.opb := rfl
@[simp] theorem State.setErr_res (s : State) (v : BitVec 3) : (s.setErr v).res = s.res := rfl
@[simp] theorem State.setErr_key (s : State) (v : BitVec 3) : (s.setErr v).key = s.key := rfl
@[simp] theorem State.setErr_state (s : State) (v : BitVec 3) : (s.setErr v).state = s.state := rfl
@[simp] theorem State.setErr_rk (s : State) (v : BitVec 3) : (s.setErr v).rk = s.rk := rfl
@[simp] theorem State.setErr_host (s : State) (v : BitVec 3) : (s.setErr v).host = s.host := rfl
@[simp] theorem State.setErr_turns (s : State) (v : BitVec 3) : (s.setErr v).turns = s.turns := rfl
@[simp] theorem State.setErr_rdata (s : State) (v : BitVec 3) : (s.setErr v).rdata = s.rdata := rfl
@[simp] theorem State.setErr_draws (s : State) (v : BitVec 3) : (s.setErr v).draws = s.draws := rfl

@[simp] theorem State.setOvr_cmdl (s : State) (v : Bool) : (s.setOvr v).cmdl = s.cmdl := rfl
@[simp] theorem State.setOvr_busy (s : State) (v : Bool) : (s.setOvr v).busy = s.busy := rfl
@[simp] theorem State.setOvr_ksv (s : State) (v : Bool) : (s.setOvr v).ksv = s.ksv := rfl
@[simp] theorem State.setOvr_err (s : State) (v : Bool) : (s.setOvr v).err = s.err := rfl
@[simp] theorem State.setOvr_ovr (s : State) (v : Bool) : (s.setOvr v).ovr = v := rfl
@[simp] theorem State.setOvr_opa (s : State) (v : Bool) : (s.setOvr v).opa = s.opa := rfl
@[simp] theorem State.setOvr_opb (s : State) (v : Bool) : (s.setOvr v).opb = s.opb := rfl
@[simp] theorem State.setOvr_res (s : State) (v : Bool) : (s.setOvr v).res = s.res := rfl
@[simp] theorem State.setOvr_key (s : State) (v : Bool) : (s.setOvr v).key = s.key := rfl
@[simp] theorem State.setOvr_state (s : State) (v : Bool) : (s.setOvr v).state = s.state := rfl
@[simp] theorem State.setOvr_rk (s : State) (v : Bool) : (s.setOvr v).rk = s.rk := rfl
@[simp] theorem State.setOvr_host (s : State) (v : Bool) : (s.setOvr v).host = s.host := rfl
@[simp] theorem State.setOvr_turns (s : State) (v : Bool) : (s.setOvr v).turns = s.turns := rfl
@[simp] theorem State.setOvr_rdata (s : State) (v : Bool) : (s.setOvr v).rdata = s.rdata := rfl
@[simp] theorem State.setOvr_draws (s : State) (v : Bool) : (s.setOvr v).draws = s.draws := rfl

@[simp] theorem State.setOpa_cmdl (s : State) (v : Byte) : (s.setOpa v).cmdl = s.cmdl := rfl
@[simp] theorem State.setOpa_busy (s : State) (v : Byte) : (s.setOpa v).busy = s.busy := rfl
@[simp] theorem State.setOpa_ksv (s : State) (v : Byte) : (s.setOpa v).ksv = s.ksv := rfl
@[simp] theorem State.setOpa_err (s : State) (v : Byte) : (s.setOpa v).err = s.err := rfl
@[simp] theorem State.setOpa_ovr (s : State) (v : Byte) : (s.setOpa v).ovr = s.ovr := rfl
@[simp] theorem State.setOpa_opa (s : State) (v : Byte) : (s.setOpa v).opa = v := rfl
@[simp] theorem State.setOpa_opb (s : State) (v : Byte) : (s.setOpa v).opb = s.opb := rfl
@[simp] theorem State.setOpa_res (s : State) (v : Byte) : (s.setOpa v).res = s.res := rfl
@[simp] theorem State.setOpa_key (s : State) (v : Byte) : (s.setOpa v).key = s.key := rfl
@[simp] theorem State.setOpa_state (s : State) (v : Byte) : (s.setOpa v).state = s.state := rfl
@[simp] theorem State.setOpa_rk (s : State) (v : Byte) : (s.setOpa v).rk = s.rk := rfl
@[simp] theorem State.setOpa_host (s : State) (v : Byte) : (s.setOpa v).host = s.host := rfl
@[simp] theorem State.setOpa_turns (s : State) (v : Byte) : (s.setOpa v).turns = s.turns := rfl
@[simp] theorem State.setOpa_rdata (s : State) (v : Byte) : (s.setOpa v).rdata = s.rdata := rfl
@[simp] theorem State.setOpa_draws (s : State) (v : Byte) : (s.setOpa v).draws = s.draws := rfl

@[simp] theorem State.setOpb_cmdl (s : State) (v : Byte) : (s.setOpb v).cmdl = s.cmdl := rfl
@[simp] theorem State.setOpb_busy (s : State) (v : Byte) : (s.setOpb v).busy = s.busy := rfl
@[simp] theorem State.setOpb_ksv (s : State) (v : Byte) : (s.setOpb v).ksv = s.ksv := rfl
@[simp] theorem State.setOpb_err (s : State) (v : Byte) : (s.setOpb v).err = s.err := rfl
@[simp] theorem State.setOpb_ovr (s : State) (v : Byte) : (s.setOpb v).ovr = s.ovr := rfl
@[simp] theorem State.setOpb_opa (s : State) (v : Byte) : (s.setOpb v).opa = s.opa := rfl
@[simp] theorem State.setOpb_opb (s : State) (v : Byte) : (s.setOpb v).opb = v := rfl
@[simp] theorem State.setOpb_res (s : State) (v : Byte) : (s.setOpb v).res = s.res := rfl
@[simp] theorem State.setOpb_key (s : State) (v : Byte) : (s.setOpb v).key = s.key := rfl
@[simp] theorem State.setOpb_state (s : State) (v : Byte) : (s.setOpb v).state = s.state := rfl
@[simp] theorem State.setOpb_rk (s : State) (v : Byte) : (s.setOpb v).rk = s.rk := rfl
@[simp] theorem State.setOpb_host (s : State) (v : Byte) : (s.setOpb v).host = s.host := rfl
@[simp] theorem State.setOpb_turns (s : State) (v : Byte) : (s.setOpb v).turns = s.turns := rfl
@[simp] theorem State.setOpb_rdata (s : State) (v : Byte) : (s.setOpb v).rdata = s.rdata := rfl
@[simp] theorem State.setOpb_draws (s : State) (v : Byte) : (s.setOpb v).draws = s.draws := rfl

@[simp] theorem State.setRes_cmdl (s : State) (v : Byte) : (s.setRes v).cmdl = s.cmdl := rfl
@[simp] theorem State.setRes_busy (s : State) (v : Byte) : (s.setRes v).busy = s.busy := rfl
@[simp] theorem State.setRes_ksv (s : State) (v : Byte) : (s.setRes v).ksv = s.ksv := rfl
@[simp] theorem State.setRes_err (s : State) (v : Byte) : (s.setRes v).err = s.err := rfl
@[simp] theorem State.setRes_ovr (s : State) (v : Byte) : (s.setRes v).ovr = s.ovr := rfl
@[simp] theorem State.setRes_opa (s : State) (v : Byte) : (s.setRes v).opa = s.opa := rfl
@[simp] theorem State.setRes_opb (s : State) (v : Byte) : (s.setRes v).opb = s.opb := rfl
@[simp] theorem State.setRes_res (s : State) (v : Byte) : (s.setRes v).res = v := rfl
@[simp] theorem State.setRes_key (s : State) (v : Byte) : (s.setRes v).key = s.key := rfl
@[simp] theorem State.setRes_state (s : State) (v : Byte) : (s.setRes v).state = s.state := rfl
@[simp] theorem State.setRes_rk (s : State) (v : Byte) : (s.setRes v).rk = s.rk := rfl
@[simp] theorem State.setRes_host (s : State) (v : Byte) : (s.setRes v).host = s.host := rfl
@[simp] theorem State.setRes_turns (s : State) (v : Byte) : (s.setRes v).turns = s.turns := rfl
@[simp] theorem State.setRes_rdata (s : State) (v : Byte) : (s.setRes v).rdata = s.rdata := rfl
@[simp] theorem State.setRes_draws (s : State) (v : Byte) : (s.setRes v).draws = s.draws := rfl

@[simp] theorem State.setKey_cmdl (s : State) (v : Quad Word) : (s.setKey v).cmdl = s.cmdl := rfl
@[simp] theorem State.setKey_busy (s : State) (v : Quad Word) : (s.setKey v).busy = s.busy := rfl
@[simp] theorem State.setKey_ksv (s : State) (v : Quad Word) : (s.setKey v).ksv = s.ksv := rfl
@[simp] theorem State.setKey_err (s : State) (v : Quad Word) : (s.setKey v).err = s.err := rfl
@[simp] theorem State.setKey_ovr (s : State) (v : Quad Word) : (s.setKey v).ovr = s.ovr := rfl
@[simp] theorem State.setKey_opa (s : State) (v : Quad Word) : (s.setKey v).opa = s.opa := rfl
@[simp] theorem State.setKey_opb (s : State) (v : Quad Word) : (s.setKey v).opb = s.opb := rfl
@[simp] theorem State.setKey_res (s : State) (v : Quad Word) : (s.setKey v).res = s.res := rfl
@[simp] theorem State.setKey_key (s : State) (v : Quad Word) : (s.setKey v).key = v := rfl
@[simp] theorem State.setKey_state (s : State) (v : Quad Word) : (s.setKey v).state = s.state := rfl
@[simp] theorem State.setKey_rk (s : State) (v : Quad Word) : (s.setKey v).rk = s.rk := rfl
@[simp] theorem State.setKey_host (s : State) (v : Quad Word) : (s.setKey v).host = s.host := rfl
@[simp] theorem State.setKey_turns (s : State) (v : Quad Word) : (s.setKey v).turns = s.turns := rfl
@[simp] theorem State.setKey_rdata (s : State) (v : Quad Word) : (s.setKey v).rdata = s.rdata := rfl
@[simp] theorem State.setKey_draws (s : State) (v : Quad Word) : (s.setKey v).draws = s.draws := rfl

@[simp] theorem State.setState_cmdl (s : State) (v : StateMatrix) : (s.setState v).cmdl = s.cmdl := rfl
@[simp] theorem State.setState_busy (s : State) (v : StateMatrix) : (s.setState v).busy = s.busy := rfl
@[simp] theorem State.setState_ksv (s : State) (v : StateMatrix) : (s.setState v).ksv = s.ksv := rfl
@[simp] theorem State.setState_err (s : State) (v : StateMatrix) : (s.setState v).err = s.err := rfl
@[simp] theorem State.setState_ovr (s : State) (v : StateMatrix) : (s.setState v).ovr = s.ovr := rfl
@[simp] theorem State.setState_opa (s : State) (v : StateMatrix) : (s.setState v).opa = s.opa := rfl
@[simp] theorem State.setState_opb (s : State) (v : StateMatrix) : (s.setState v).opb = s.opb := rfl
@[simp] theorem State.setState_res (s : State) (v : StateMatrix) : (s.setState v).res = s.res := rfl
@[simp] theorem State.setState_key (s : State) (v : StateMatrix) : (s.setState v).key = s.key := rfl
@[simp] theorem State.setState_state (s : State) (v : StateMatrix) : (s.setState v).state = v := rfl
@[simp] theorem State.setState_rk (s : State) (v : StateMatrix) : (s.setState v).rk = s.rk := rfl
@[simp] theorem State.setState_host (s : State) (v : StateMatrix) : (s.setState v).host = s.host := rfl
@[simp] theorem State.setState_turns (s : State) (v : StateMatrix) : (s.setState v).turns = s.turns := rfl
@[simp] theorem State.setState_rdata (s : State) (v : StateMatrix) : (s.setState v).rdata = s.rdata := rfl
@[simp] theorem State.setState_draws (s : State) (v : StateMatrix) : (s.setState v).draws = s.draws := rfl

@[simp] theorem State.setRk_cmdl (s : State) (v : Schedule) : (s.setRk v).cmdl = s.cmdl := rfl
@[simp] theorem State.setRk_busy (s : State) (v : Schedule) : (s.setRk v).busy = s.busy := rfl
@[simp] theorem State.setRk_ksv (s : State) (v : Schedule) : (s.setRk v).ksv = s.ksv := rfl
@[simp] theorem State.setRk_err (s : State) (v : Schedule) : (s.setRk v).err = s.err := rfl
@[simp] theorem State.setRk_ovr (s : State) (v : Schedule) : (s.setRk v).ovr = s.ovr := rfl
@[simp] theorem State.setRk_opa (s : State) (v : Schedule) : (s.setRk v).opa = s.opa := rfl
@[simp] theorem State.setRk_opb (s : State) (v : Schedule) : (s.setRk v).opb = s.opb := rfl
@[simp] theorem State.setRk_res (s : State) (v : Schedule) : (s.setRk v).res = s.res := rfl
@[simp] theorem State.setRk_key (s : State) (v : Schedule) : (s.setRk v).key = s.key := rfl
@[simp] theorem State.setRk_state (s : State) (v : Schedule) : (s.setRk v).state = s.state := rfl
@[simp] theorem State.setRk_rk (s : State) (v : Schedule) : (s.setRk v).rk = v := rfl
@[simp] theorem State.setRk_host (s : State) (v : Schedule) : (s.setRk v).host = s.host := rfl
@[simp] theorem State.setRk_turns (s : State) (v : Schedule) : (s.setRk v).turns = s.turns := rfl
@[simp] theorem State.setRk_rdata (s : State) (v : Schedule) : (s.setRk v).rdata = s.rdata := rfl
@[simp] theorem State.setRk_draws (s : State) (v : Schedule) : (s.setRk v).draws = s.draws := rfl

@[simp] theorem State.setHost_cmdl (s : State) (v : List HostOp) : (s.setHost v).cmdl = s.cmdl := rfl
@[simp] theorem State.setHost_busy (s : State) (v : List HostOp) : (s.setHost v).busy = s.busy := rfl
@[simp] theorem State.setHost_ksv (s : State) (v : List HostOp) : (s.setHost v).ksv = s.ksv := rfl
@[simp] theorem State.setHost_err (s : State) (v : List HostOp) : (s.setHost v).err = s.err := rfl
@[simp] theorem State.setHost_ovr (s : State) (v : List HostOp) : (s.setHost v).ovr = s.ovr := rfl
@[simp] theorem State.setHost_opa (s : State) (v : List HostOp) : (s.setHost v).opa = s.opa := rfl
@[simp] theorem State.setHost_opb (s : State) (v : List HostOp) : (s.setHost v).opb = s.opb := rfl
@[simp] theorem State.setHost_res (s : State) (v : List HostOp) : (s.setHost v).res = s.res := rfl
@[simp] theorem State.setHost_key (s : State) (v : List HostOp) : (s.setHost v).key = s.key := rfl
@[simp] theorem State.setHost_state (s : State) (v : List HostOp) : (s.setHost v).state = s.state := rfl
@[simp] theorem State.setHost_rk (s : State) (v : List HostOp) : (s.setHost v).rk = s.rk := rfl
@[simp] theorem State.setHost_host (s : State) (v : List HostOp) : (s.setHost v).host = v := rfl
@[simp] theorem State.setHost_turns (s : State) (v : List HostOp) : (s.setHost v).turns = s.turns := rfl
@[simp] theorem State.setHost_rdata (s : State) (v : List HostOp) : (s.setHost v).rdata = s.rdata := rfl
@[simp] theorem State.setHost_draws (s : State) (v : List HostOp) : (s.setHost v).draws = s.draws := rfl

@[simp] theorem State.setTurns_cmdl (s : State) (v : List Agent) : (s.setTurns v).cmdl = s.cmdl := rfl
@[simp] theorem State.setTurns_busy (s : State) (v : List Agent) : (s.setTurns v).busy = s.busy := rfl
@[simp] theorem State.setTurns_ksv (s : State) (v : List Agent) : (s.setTurns v).ksv = s.ksv := rfl
@[simp] theorem State.setTurns_err (s : State) (v : List Agent) : (s.setTurns v).err = s.err := rfl
@[simp] theorem State.setTurns_ovr (s : State) (v : List Agent) : (s.setTurns v).ovr = s.ovr := rfl
@[simp] theorem State.setTurns_opa (s : State) (v : List Agent) : (s.setTurns v).opa = s.opa := rfl
@[simp] theorem State.setTurns_opb (s : State) (v : List Agent) : (s.setTurns v).opb = s.opb := rfl
@[simp] theorem State.setTurns_res (s : State) (v : List Agent) : (s.setTurns v).res = s.res := rfl
@[simp] theorem State.setTurns_key (s : State) (v : List Agent) : (s.setTurns v).key = s.key := rfl
@[simp] theorem State.setTurns_state (s : State) (v : List Agent) : (s.setTurns v).state = s.state := rfl
@[simp] theorem State.setTurns_rk (s : State) (v : List Agent) : (s.setTurns v).rk = s.rk := rfl
@[simp] theorem State.setTurns_host (s : State) (v : List Agent) : (s.setTurns v).host = s.host := rfl
@[simp] theorem State.setTurns_turns (s : State) (v : List Agent) : (s.setTurns v).turns = v := rfl
@[simp] theorem State.setTurns_rdata (s : State) (v : List Agent) : (s.setTurns v).rdata = s.rdata := rfl
@[simp] theorem State.setTurns_draws (s : State) (v : List Agent) : (s.setTurns v).draws = s.draws := rfl

@[simp] theorem State.setRdata_cmdl (s : State) (v : Option Word) : (s.setRdata v).cmdl = s.cmdl := rfl
@[simp] theorem State.setRdata_busy (s : State) (v : Option Word) : (s.setRdata v).busy = s.busy := rfl
@[simp] theorem State.setRdata_ksv (s : State) (v : Option Word) : (s.setRdata v).ksv = s.ksv := rfl
@[simp] theorem State.setRdata_err (s : State) (v : Option Word) : (s.setRdata v).err = s.err := rfl
@[simp] theorem State.setRdata_ovr (s : State) (v : Option Word) : (s.setRdata v).ovr = s.ovr := rfl
@[simp] theorem State.setRdata_opa (s : State) (v : Option Word) : (s.setRdata v).opa = s.opa := rfl
@[simp] theorem State.setRdata_opb (s : State) (v : Option Word) : (s.setRdata v).opb = s.opb := rfl
@[simp] theorem State.setRdata_res (s : State) (v : Option Word) : (s.setRdata v).res = s.res := rfl
@[simp] theorem State.setRdata_key (s : State) (v : Option Word) : (s.setRdata v).key = s.key := rfl
@[simp] theorem State.setRdata_state (s : State) (v : Option Word) : (s.setRdata v).state = s.state := rfl
@[simp] theorem State.setRdata_rk (s : State) (v : Option Word) : (s.setRdata v).rk = s.rk := rfl
@[simp] theorem State.setRdata_host (s : State) (v : Option Word) : (s.setRdata v).host = s.host := rfl
@[simp] theorem State.setRdata_turns (s : State) (v : Option Word) : (s.setRdata v).turns = s.turns := rfl
@[simp] theorem State.setRdata_rdata (s : State) (v : Option Word) : (s.setRdata v).rdata = v := rfl
@[simp] theorem State.setRdata_draws (s : State) (v : Option Word) : (s.setRdata v).draws = s.draws := rfl

@[simp] theorem State.setDraws_cmdl (s : State) (v : Nat) : (s.setDraws v).cmdl = s.cmdl := rfl
@[simp] theorem State.setDraws_busy (s : State) (v : Nat) : (s.setDraws v).busy = s.busy := rfl
@[simp] theorem State.setDraws_ksv (s : State) (v : Nat) : (s.setDraws v).ksv = s.ksv := rfl
@[simp] theorem State.setDraws_err (s : State) (v : Nat) : (s.setDraws v).err = s.err := rfl
@[simp] theorem State.setDraws_ovr (s : State) (v : Nat) : (s.setDraws v).ovr = s.ovr := rfl
@[simp] theorem State.setDraws_opa (s : State) (v : Nat) : (s.setDraws v).opa = s.opa := rfl
@[simp] theorem State.setDraws_opb (s : State) (v : Nat) : (s.setDraws v).opb = s.opb := rfl
@[simp] theorem State.setDraws_res (s : State) (v : Nat) : (s.setDraws v).res = s.res := rfl
@[simp] theorem State.setDraws_key (s : State) (v : Nat) : (s.setDraws v).key = s.key := rfl
@[simp] theorem State.setDraws_state (s : State) (v : Nat) : (s.setDraws v).state = s.state := rfl
@[simp] theorem State.setDraws_rk (s : State) (v : Nat) : (s.setDraws v).rk = s.rk := rfl
@[simp] theorem State.setDraws_host (s : State) (v : Nat) : (s.setDraws v).host = s.host := rfl
@[simp] theorem State.setDraws_turns (s : State) (v : Nat) : (s.setDraws v).turns = s.turns := rfl
@[simp] theorem State.setDraws_rdata (s : State) (v : Nat) : (s.setDraws v).rdata = s.rdata := rfl
@[simp] theorem State.setDraws_draws (s : State) (v : Nat) : (s.setDraws v).draws = v := rfl

@[simp] theorem State.setDataRegs_cmdl (s : State) (d : DataRegs) : (s.setDataRegs d).cmdl = d.cmdl := rfl
@[simp] theorem State.setDataRegs_busy (s : State) (d : DataRegs) : (s.setDataRegs d).busy = s.busy := rfl
@[simp] theorem State.setDataRegs_ksv (s : State) (d : DataRegs) : (s.setDataRegs d).ksv = s.ksv := rfl
@[simp] theorem State.setDataRegs_err (s : State) (d : DataRegs) : (s.setDataRegs d).err = s.err := rfl
@[simp] theorem State.setDataRegs_ovr (s : State) (d : DataRegs) : (s.setDataRegs d).ovr = s.ovr := rfl
@[simp] theorem State.setDataRegs_opa (s : State) (d : DataRegs) : (s.setDataRegs d).opa = d.opa := rfl
@[simp] theorem State.setDataRegs_opb (s : State) (d : DataRegs) : (s.setDataRegs d).opb = d.opb := rfl
@[simp] theorem State.setDataRegs_res (s : State) (d : DataRegs) : (s.setDataRegs d).res = d.res := rfl
@[simp] theorem State.setDataRegs_key (s : State) (d : DataRegs) : (s.setDataRegs d).key = d.key := rfl
@[simp] theorem State.setDataRegs_state (s : State) (d : DataRegs) : (s.setDataRegs d).state = d.state := rfl
@[simp] theorem State.setDataRegs_rk (s : State) (d : DataRegs) : (s.setDataRegs d).rk = d.rk := rfl
@[simp] theorem State.setDataRegs_host (s : State) (d : DataRegs) : (s.setDataRegs d).host = s.host := rfl
@[simp] theorem State.setDataRegs_turns (s : State) (d : DataRegs) : (s.setDataRegs d).turns = s.turns := rfl
@[simp] theorem State.setDataRegs_rdata (s : State) (d : DataRegs) : (s.setDataRegs d).rdata = s.rdata := rfl
@[simp] theorem State.setDataRegs_draws (s : State) (d : DataRegs) : (s.setDataRegs d).draws = s.draws := rfl

end Sys2Proof.Machine
end

