-- ==== Sys2Proof/Laws/Ops.lean ====
section
/-! SUPPORT. Everything each shared operation of the commands can do. -/

namespace Sys2Proof.Machine

theorem finish_eq (s : State) : finish s = .next { s with err := 0 } := rfl

theorem cmdError_eq (code : BitVec 3) (s : State) : cmdError code s = .next { s with err := code } := rfl

theorem byteResult_eq (v : Byte) (s : State) : byteResult v s = .next { s with res := v, err := 0 } := rfl

theorem stateResult_eq (m : StateMatrix) (s : State) : stateResult m s = .next { s with state := m, err := 0 } := rfl

theorem withKeySchedule_valid {s : State} {perform : State → Host.Outcome State Fault Refusal} (h : s.ksv = true) :
    withKeySchedule s perform = perform s := by simp [withKeySchedule, h]

theorem withKeySchedule_missing {s : State} {perform : State → Host.Outcome State Fault Refusal} (h : s.ksv = false) :
    withKeySchedule s perform = .next { s with err := 2 } := by
  rw [withKeySchedule, if_neg (by simp [h])]
  rfl

theorem resetEvent_eq (s : State) (d : DataRegs) (h : Config.resetData s.draws s.dataRegs = d) :
    resetEvent s = { s with
      cmdl := d.cmdl, opa := d.opa, opb := d.opb, res := d.res, key := d.key, state := d.state, rk := d.rk
      draws := s.draws + 1, busy := false, ksv := false, err := 0, ovr := false } := by
  subst h
  rfl

end Sys2Proof.Machine
end

