-- ==== Sys2Proof/Laws/Exec.lean ====
section
/-! SUPPORT. Everything a command, and an engine step, can do. -/

namespace Sys2Proof.Machine

/-- Whatever the command, it ends in a next state of one of five shapes. -/
inductive Effect (i : Instr) (s : State) : State → Prop where
  /-- a command error, or NOP -/
  | code (c : BitVec 3) (h : c.toNat ≤ 2) : Effect i s { s with err := c }
  /-- a byte command -/
  | byte (v : Byte) : Effect i s { s with res := v, err := 0 }
  /-- a state command -/
  | matrix (m : StateMatrix) : Effect i s { s with state := m, err := 0 }
  /-- EXPAND_KEY -/
  | schedule (h : i = .expandKey) : Effect i s { s with rk := expandKey (keyBytes s.key), ksv := true, err := 0 }

theorem exec_encrypt (s : State) :
    exec .encrypt s = withKeySchedule s fun s => stateResult (load (encryptBlock (store s.state) s.rk)) s := rfl

theorem exec_decrypt (s : State) :
    exec .decrypt s = withKeySchedule s fun s => stateResult (load (decryptBlock (store s.state) s.rk)) s := rfl

theorem exec_addRoundKey {rnd : BitVec 4} (h : rnd.toNat < 11) (s : State) :
    exec (.addRoundKey rnd) s =
      withKeySchedule s fun s => stateResult (addRoundKey s.state s.rk ⟨rnd.toNat, h⟩) s := by
  simp only [exec, execAddRoundKey, h, dite_true]

theorem exec_addRoundKey_out {rnd : BitVec 4} (h : ¬ rnd.toNat < 11) (s : State) :
    exec (.addRoundKey rnd) s = .next { s with err := 1 } := by
  simp only [exec, execAddRoundKey, h, dite_false]
  rfl

theorem withKeySchedule_effect (i : Instr) (s : State) (m : State → StateMatrix) :
    ∃ t, withKeySchedule s (fun s => stateResult (m s) s) = .next t ∧ Effect i s t := by
  cases h : s.ksv
  · exact ⟨_, withKeySchedule_missing h, .code 2 (by decide)⟩
  · exact ⟨_, withKeySchedule_valid h, .matrix _⟩

theorem exec_effect (i : Instr) (s : State) : ∃ t, exec i s = .next t ∧ Effect i s t := by
  cases i with
  | nop => exact ⟨_, rfl, .code 0 (by decide)⟩
  | gfAdd => exact ⟨_, rfl, .byte _⟩
  | gfXtime => exact ⟨_, rfl, .byte _⟩
  | gfMul => exact ⟨_, rfl, .byte _⟩
  | sbox => exact ⟨_, rfl, .byte _⟩
  | invSbox => exact ⟨_, rfl, .byte _⟩
  | subBytes => exact ⟨_, rfl, .matrix _⟩
  | invSubBytes => exact ⟨_, rfl, .matrix _⟩
  | shiftRows => exact ⟨_, rfl, .matrix _⟩
  | invShiftRows => exact ⟨_, rfl, .matrix _⟩
  | mixColumns => exact ⟨_, rfl, .matrix _⟩
  | invMixColumns => exact ⟨_, rfl, .matrix _⟩
  | addRoundKey rnd =>
    by_cases h : rnd.toNat < 11
    · rw [exec_addRoundKey h]
      exact withKeySchedule_effect _ s fun s => addRoundKey s.state s.rk ⟨rnd.toNat, h⟩
    · exact ⟨_, exec_addRoundKey_out h s, .code 1 (by decide)⟩
  | expandKey => exact ⟨_, rfl, .schedule rfl⟩
  | encrypt => exact exec_encrypt s ▸ withKeySchedule_effect .encrypt s fun s => load (encryptBlock (store s.state) s.rk)
  | decrypt => exact exec_decrypt s ▸ withKeySchedule_effect .decrypt s fun s => load (decryptBlock (store s.state) s.rk)

/-- An engine step executes the decoded command, or reports ILLEGAL, and clears BUSY. -/
theorem engineStep_cases (s : State) :
    (∃ i t, decode s.cmdl = .ok i ∧ exec i s = .next t ∧ Effect i s t ∧ engineStep s = .next { t with busy := false }) ∨
    (∃ e, decode s.cmdl = .error e ∧ engineStep s = .next { s with err := 1, busy := false }) := by
  cases hd : decode s.cmdl with
  | error e => exact .inr ⟨e, rfl, by simp only [engineStep, execute, hd]; rfl⟩
  | ok i =>
    obtain ⟨t, ht, he⟩ := exec_effect i s
    exact .inl ⟨i, t, rfl, ht, he, by simp only [engineStep, execute, hd, ht]; rfl⟩

end Sys2Proof.Machine
end

