-- ==== Sys2Proof/Laws/HostBus.lean ====
section
/-! SUPPORT. The register map, and everything a host access can do. -/

namespace Sys2Proof.Machine

theorem mem_allRegs (r : Reg) : r ∈ allRegs := by
  cases r <;> simp [allRegs]

theorem Reg.addr_injective {r q : Reg} (h : r.addr = q.addr) : r = q := by
  cases r <;> cases q <;> simp only [Reg.addr] at h <;>
    first
      | rfl
      | omega
      | (congr 1; ext; omega)

/-- The register at an address is the one whose address it is. -/
theorem regAt_eq_some {addr : Nat} {r : Reg} : regAt addr = some r ↔ r.addr = addr := by
  constructor
  · intro h
    simpa using List.find?_some h
  · rintro rfl
    cases h : regAt r.addr with
    | none => exact absurd (List.find?_eq_none.mp h r (mem_allRegs r)) (by simp)
    | some q =>
      have hq : q.addr = r.addr := by simpa using List.find?_some h
      rw [Reg.addr_injective hq]

theorem Reg.addr_aligned (r : Reg) : r.addr % 4 = 0 := by
  cases r <;> simp only [Reg.addr] <;> omega

theorem access_addr (r : Reg) : access r.addr 4 = .ok r := by
  have h : regAt r.addr = some r := regAt_eq_some.mpr rfl
  simp [access, r.addr_aligned, h]

theorem access_eq_ok {addr width : Nat} {r : Reg} : access addr width = .ok r ↔ width = 4 ∧ r.addr = addr := by
  constructor
  · intro h
    unfold access at h
    split at h
    · cases h
    · split at h
      · cases h
      · rename_i hw _
        split at h
        · rename_i q hq
          cases h
          exact ⟨by omega, regAt_eq_some.mp hq⟩
        · cases h
  · rintro ⟨rfl, rfl⟩
    exact access_addr r

theorem unlessBusy_busy {s accepted : State} (h : s.busy = true) : unlessBusy s accepted = s.setOvr true := by
  simp [unlessBusy, h]

theorem unlessBusy_idle {s accepted : State} (h : s.busy = false) : unlessBusy s accepted = accepted := by
  simp [unlessBusy, h]

theorem unlessBusy_cases (s accepted : State) :
    (s.busy = true ∧ unlessBusy s accepted = s.setOvr true) ∨ (s.busy = false ∧ unlessBusy s accepted = accepted) := by
  cases h : s.busy
  · exact .inr ⟨rfl, unlessBusy_idle h⟩
  · exact .inl ⟨rfl, unlessBusy_busy h⟩

/-- Everything a write can do: it is dropped, latches a command, sets a data register, clears OVR, or is ignored. -/
inductive Written (s : State) (r : Reg) (v : Word) : State → Prop where
  /-- a protected register while BUSY = 1 (R58) -/
  | dropped (h : s.busy = true)
      (hr : r = .cmd ∨ r = .opa ∨ r = .opb ∨ (∃ j, r = .key j) ∨ (∃ c, r = .state c)) : Written s r v (s.setOvr true)
  /-- CMD while BUSY = 0 (R55) -/
  | latched (h : s.busy = false) (hr : r = .cmd) : Written s r v ((s.setCmdl v).setBusy true)
  /-- OPA while BUSY = 0 (R56) -/
  | opa (h : s.busy = false) (hr : r = .opa) (b : Byte) : Written s r v (s.setOpa b)
  /-- OPB while BUSY = 0 (R56) -/
  | opb (h : s.busy = false) (hr : r = .opb) (b : Byte) : Written s r v (s.setOpb b)
  /-- a key register while BUSY = 0 (R56) -/
  | key (h : s.busy = false) (j : Fin 4) (hr : r = .key j) : Written s r v (s.setKey (s.key.set j v))
  /-- a state register while BUSY = 0 (R56) -/
  | state (h : s.busy = false) (c : Fin 4) (hr : r = .state c) : Written s r v (s.setState (setStateWord s.state c v))
  /-- STATUS with bit 8 set (R57) -/
  | cleared (hr : r = .status) (hv : v.getLsbD 8 = true) : Written s r v (s.setOvr false)
  /-- STATUS with bit 8 clear, or a read-only register (R57, R59) -/
  | ignored (hr : (r = .status ∧ v.getLsbD 8 = false) ∨ r = .res ∨ ∃ i, r = .rkw i) : Written s r v s

theorem written_unlessBusy {s accepted : State} {r : Reg} {v : Word} (e : memWrite s r v = unlessBusy s accepted)
    (hr : r = .cmd ∨ r = .opa ∨ r = .opb ∨ (∃ j, r = .key j) ∨ (∃ c, r = .state c))
    (ha : s.busy = false → Written s r v accepted) : Written s r v (memWrite s r v) := by
  obtain ⟨h, h'⟩ | ⟨h, h'⟩ := unlessBusy_cases s accepted
  · rw [e, h']
    exact .dropped h hr
  · rw [e, h']
    exact ha h

theorem memWrite_written (s : State) (r : Reg) (v : Word) : Written s r v (memWrite s r v) := by
  cases r with
  | cmd => exact written_unlessBusy rfl (by simp) fun h => .latched h rfl
  | status =>
    cases h : v.getLsbD 8
    · rw [show memWrite s .status v = s from if_neg (by rw [clearsOvr, h]; decide)]
      exact .ignored (.inl ⟨rfl, h⟩)
    · rw [show memWrite s .status v = s.setOvr false from if_pos h]
      exact .cleared rfl h
  | opa => exact written_unlessBusy rfl (by simp) fun h => .opa h rfl _
  | opb => exact written_unlessBusy rfl (by simp) fun h => .opb h rfl _
  | res => exact .ignored (by simp)
  | key j => exact written_unlessBusy rfl (by simp) fun h => .key h j rfl
  | state c => exact written_unlessBusy rfl (by simp) fun h => .state h c rfl
  | rkw i => exact .ignored (by simp)

theorem showsBusy_statusWord (s : State) : showsBusy (statusWord s) = s.busy := by
  unfold showsBusy statusWord
  generalize s.busy = b
  generalize s.ksv = k
  generalize s.err = e
  generalize s.ovr = o
  revert b k e o
  decide

/-- POLL reads STATUS, exact at any time, and ends when it shows BUSY = 0. -/
theorem pollRead_eq (s : State) (rest : List HostOp) :
    pollRead s rest = { s with host := if s.busy then s.host else rest, rdata := some (statusWord s) } := by
  have h : readValue s .status = statusWord s := by simp [readValue, hiddenWhileBusy, regValue]
  rw [pollRead, h, showsBusy_statusWord]
  cases hb : s.busy <;>
    simp [memRead, readValue, drawsAfterRead, hiddenWhileBusy, regValue, statusWord, State.setDraws, State.setRdata,
      State.setHost, hb]

/-- Everything a turn of the host can do. -/
theorem hostStep_cases {s t : State} (h : hostStep s = .next t) :
    (s.host = [] ∧ t = s) ∨
    (∃ r rest, s.host = .read r.addr 4 :: rest ∧ t = memRead (s.setHost rest) r) ∨
    (∃ r v rest, s.host = .write r.addr 4 v :: rest ∧ t = memWrite (s.setHost rest) r v) ∨
    (∃ rest, s.host = .reset :: rest ∧ t = resetEvent (s.setHost rest)) ∨
    (∃ rest, s.host = .poll :: rest ∧ t = pollRead s rest) := by
  unfold hostStep at h
  split at h
  · rename_i hh
    cases h
    exact .inl ⟨hh, rfl⟩
  · rename_i addr width rest hh
    split at h
    · rename_i r ha
      cases h
      obtain ⟨rfl, rfl⟩ := access_eq_ok.mp ha
      exact .inr (.inl ⟨r, rest, hh, rfl⟩)
    · cases h
  · rename_i addr width v rest hh
    split at h
    · rename_i r ha
      cases h
      obtain ⟨rfl, rfl⟩ := access_eq_ok.mp ha
      exact .inr (.inr (.inl ⟨r, v, rest, hh, rfl⟩))
    · cases h
  · rename_i rest hh
    cases h
    exact .inr (.inr (.inr (.inl ⟨rest, hh, rfl⟩)))
  · rename_i rest hh
    cases h
    exact .inr (.inr (.inr (.inr ⟨rest, hh, rfl⟩)))

end Sys2Proof.Machine
end

