-- ==== Sys2Proof/Laws/Operands.lean ====
section
/-! SUPPORT. The laws of the operand forms: reading a group, a matrix, a word or a block after building it. -/

namespace Sys2Proof

theorem Quad.ext_get {α : Type} {p q : Quad α} (h : ∀ k, p.get k = q.get k) : p = q := by
  obtain ⟨p0, p1, p2, p3⟩ := p
  obtain ⟨q0, q1, q2, q3⟩ := q
  have h0 := h 0
  have h1 := h 1
  have h2 := h 2
  have h3 := h 3
  simp only [Quad.get] at h0 h1 h2 h3
  rw [h0, h1, h2, h3]

@[simp] theorem Quad.get_ofFn {α : Type} (f : Fin 4 → α) (k : Fin 4) : (Quad.ofFn f).get k = f k := by
  fin_cases k <;> rfl

@[simp] theorem Quad.get_set {α : Type} (q : Quad α) (k i : Fin 4) (v : α) :
    (q.set k v).get i = if i = k then v else q.get i := Quad.get_ofFn _ i

namespace Machine

theorem StateMatrix_ext {m n : StateMatrix} (h : ∀ r c, entry m r c = entry n r c) : m = n :=
  Quad.ext_get fun c => Quad.ext_get fun r => h r c

@[simp] theorem entry_matrixOf (f : Fin 4 → Fin 4 → Byte) (r c : Fin 4) : entry (matrixOf f) r c = f r c := by
  simp [entry, matrixOf]

theorem get_matrixOf (f : Fin 4 → Fin 4 → Byte) (c : Fin 4) : (matrixOf f).get c = Quad.ofFn fun r => f r c := by
  simp [matrixOf]

@[simp] theorem entry_load (b : Block) (r c : Fin 4) : entry (load b) r c = b[4 * c.val + r.val] := by
  simp [load]

@[simp] theorem getElem_store (m : StateMatrix) (i : Nat) (h : i < 16) :
    (store m)[i] = entry m ⟨i % 4, by omega⟩ ⟨i / 4, by omega⟩ := by
  simp [store]

theorem load_store (m : StateMatrix) : load (store m) = m := by
  refine StateMatrix_ext fun r c => ?_
  have hr : (4 * c.val + r.val) % 4 = r.val := by omega
  have hc : (4 * c.val + r.val) / 4 = c.val := by omega
  simp [hr, hc]

theorem byteOf_wordOf (q : Column) (k : Fin 4) : byteOf k (wordOf q) = q.get k := by
  obtain ⟨a, b, c, d⟩ := q
  fin_cases k <;>
  · simp only [byteOf, wordOf, Quad.get]
    ext i hi
    simp only [BitVec.getElem_extractLsb', BitVec.getLsbD_append]
    simp only [← BitVec.getLsbD_eq_getElem]
    interval_cases i <;> simp

theorem Word_ext {v w : Word} (h : ∀ k, byteOf k v = byteOf k w) : v = w := by
  ext i hi
  have hk := h ⟨3 - i / 8, by omega⟩
  have hb := congrArg (fun b : Byte => b.getLsbD (i % 8)) hk
  simp only [byteOf, BitVec.getLsbD_extractLsb'] at hb
  have h1 : i % 8 < 8 := Nat.mod_lt _ (by decide)
  have h2 : 24 - 8 * (3 - i / 8) + i % 8 = i := by omega
  simpa [h1, h2, BitVec.getLsbD_eq_getElem hi] using hb

theorem wordOf_columnOf (w : Word) : wordOf (columnOf w) = w := by
  refine Word_ext fun k => ?_
  rw [byteOf_wordOf]
  simp [columnOf]

@[simp] theorem getElem_keyBytes (key : Quad Word) (i : Nat) (h : i < 16) :
    (keyBytes key)[i] = byteOf ⟨i % 4, by omega⟩ (key.get ⟨i / 4, by omega⟩) := by
  simp [keyBytes]

theorem byteOf_blockWord (b : Block) (j k : Fin 4) : byteOf k (blockWord b j) = b[4 * j.val + k.val] := by
  rw [blockWord, byteOf_wordOf]
  fin_cases k <;> rfl

/-- In the hardware `w[j] = KEYj` (43_key_schedule.md R170). -/
theorem blockWord_keyBytes (key : Quad Word) (j : Fin 4) : blockWord (keyBytes key) j = key.get j := by
  refine Word_ext fun k => ?_
  have hk : (4 * j.val + k.val) % 4 = k.val := by omega
  have hj : (4 * j.val + k.val) / 4 = j.val := by omega
  rw [byteOf_blockWord]
  simp [hk, hj]

@[simp] theorem entry_roundKeyMatrix (w : Schedule) (rnd : Fin 11) (r c : Fin 4) :
    entry (roundKeyMatrix w rnd) r c = byteOf r w[4 * rnd.val + c.val] := by
  simp [roundKeyMatrix]

end Machine

end Sys2Proof
end

