-- ==== Sys2Proof/Laws/PerInstr.lean ====
section
/-! SUPPORT. The fields of every command's word: its opcode, its round index, and no reserved bit. -/

namespace Sys2Proof.Laws.EncodeFields

/-- The three fields of a command's word (30_encoding.md R80, R82). -/
def Statement (i : Instr) : Prop :=
  opcField (encode i) = i.opcode ∧ rndField (encode i) = i.rnd ∧ rsvField (encode i) = 0

theorem nop : Statement .nop := ⟨rfl, rfl, rfl⟩
theorem gfAdd : Statement .gfAdd := ⟨rfl, rfl, rfl⟩
theorem gfXtime : Statement .gfXtime := ⟨rfl, rfl, rfl⟩
theorem gfMul : Statement .gfMul := ⟨rfl, rfl, rfl⟩
theorem sbox : Statement .sbox := ⟨rfl, rfl, rfl⟩
theorem invSbox : Statement .invSbox := ⟨rfl, rfl, rfl⟩
theorem subBytes : Statement .subBytes := ⟨rfl, rfl, rfl⟩
theorem invSubBytes : Statement .invSubBytes := ⟨rfl, rfl, rfl⟩
theorem shiftRows : Statement .shiftRows := ⟨rfl, rfl, rfl⟩
theorem invShiftRows : Statement .invShiftRows := ⟨rfl, rfl, rfl⟩
theorem mixColumns : Statement .mixColumns := ⟨rfl, rfl, rfl⟩
theorem invMixColumns : Statement .invMixColumns := ⟨rfl, rfl, rfl⟩
theorem addRoundKey (rnd : BitVec 4) : Statement (.addRoundKey rnd) := by
  unfold Statement
  revert rnd
  decide
theorem expandKey : Statement .expandKey := ⟨rfl, rfl, rfl⟩
theorem encrypt : Statement .encrypt := ⟨rfl, rfl, rfl⟩
theorem decrypt : Statement .decrypt := ⟨rfl, rfl, rfl⟩

end Sys2Proof.Laws.EncodeFields
end

