-- ==== Sys2Proof/Laws/Safety.lean ====
section
/-! SUPPORT. The predicates on host programs, one line at a time. -/

namespace Sys2Proof.Machine

theorem respectsBusy_cons (pending : Bool) (op : HostOp) (rest : List HostOp) :
    respectsBusy pending (op :: rest) =
      (!(pending && (op.writesProtected || op.readsHidden)) &&
        respectsBusy
          (match op with
            | .poll => false
            | .reset => false
            | .read _ _ => pending
            | .write _ _ _ => pending || op.writesCmd)
          rest) := by
  cases op <;> rfl

theorem runForm_cons (op : HostOp) (rest : List HostOp) :
    runForm (op :: rest) = ((!op.writesCmd || rest.head? == some .poll) && runForm rest) := rfl

theorem writesCmd_write (r : Reg) (v : Word) : (HostOp.write r.addr 4 v).writesCmd = (r == .cmd) := by
  simp only [HostOp.writesCmd, access_addr]

theorem writesProtected_write (r : Reg) (v : Word) : (HostOp.write r.addr 4 v).writesProtected = protectedReg r := by
  simp only [HostOp.writesProtected, access_addr]

theorem readsHidden_read (r : Reg) : (HostOp.read r.addr 4).readsHidden = hiddenWhileBusy r := by
  simp only [HostOp.readsHidden, access_addr]

theorem execAll_append {s t : State} {is js : List Instr} (h : execAll is s = .next t) :
    execAll (is ++ js) s = execAll js t := by
  induction is generalizing s with
  | nil =>
    cases h
    rfl
  | cons i is ih =>
    simp only [List.cons_append, execAll] at h ⊢
    cases he : exec i s with
    | next u =>
      rw [he] at h
      exact ih h
    | fault r =>
      rw [he] at h
      cases h
    | refused r =>
      rw [he] at h
      cases h

end Sys2Proof.Machine
end

