-- ==== Sys2Proof/Laws/Step.lean ====
section
/-! SUPPORT. What one step of the machine can be. -/

namespace Sys2Proof.Machine

theorem nextAgent_engine_busy {s : State} (h : nextAgent s = some .engine) : s.busy = true := by
  unfold nextAgent at h
  split at h <;> simp_all

theorem nextAgent_host {s : State} (h : nextAgent s = some .host) : s.host ≠ [] := by
  unfold nextAgent at h
  split at h <;> simp_all

theorem nextAgent_none {s : State} (h : nextAgent s = none) : s.busy = false ∧ s.host = [] := by
  unfold nextAgent at h
  split at h <;> simp_all

theorem nextAgent_idle {s : State} (h : s.busy = false) : nextAgent s = if s.host = [] then none else some .host := by
  unfold nextAgent
  split <;> simp_all

@[simp] theorem takeTurn_busy (s : State) : (takeTurn s).busy = s.busy := by unfold takeTurn; split <;> rfl
@[simp] theorem takeTurn_host (s : State) : (takeTurn s).host = s.host := by unfold takeTurn; split <;> rfl
@[simp] theorem takeTurn_cmdl (s : State) : (takeTurn s).cmdl = s.cmdl := by unfold takeTurn; split <;> rfl

@[simp] theorem takeTurn_ksv (s : State) : (takeTurn s).ksv = s.ksv := by unfold takeTurn; split <;> rfl
@[simp] theorem takeTurn_err (s : State) : (takeTurn s).err = s.err := by unfold takeTurn; split <;> rfl
@[simp] theorem takeTurn_ovr (s : State) : (takeTurn s).ovr = s.ovr := by unfold takeTurn; split <;> rfl
@[simp] theorem takeTurn_rk (s : State) : (takeTurn s).rk = s.rk := by unfold takeTurn; split <;> rfl
@[simp] theorem takeTurn_draws (s : State) : (takeTurn s).draws = s.draws := by unfold takeTurn; split <;> rfl

/-- Taking a turn changes the turns only. -/
theorem takeTurn_eq (s : State) : takeTurn s = { s with turns := (takeTurn s).turns } := by
  unfold takeTurn
  split <;> rfl

theorem takeTurn_of_busy {s : State} (h : s.busy = true) : takeTurn s = { s with turns := s.turns.tail } := by
  simp [takeTurn, h, State.setTurns]

/-- A step without a turn to take leaves the turns. -/
theorem takeTurn_idle {s : State} (h : s.busy = false) : takeTurn s = s := by simp [takeTurn, h]

theorem step_engine {s : State} (h : nextAgent s = some .engine) : step s = engineStep (takeTurn s) := by
  simp only [step, move, h]

theorem step_host {s : State} (h : nextAgent s = some .host) : step s = hostStep (takeTurn s) := by
  simp only [step, move, h]

/-- Everything a step is: an engine step, a host access, or idling. -/
theorem step_cases (s : State) :
    (nextAgent s = some .engine ∧ step s = engineStep (takeTurn s)) ∨
    (nextAgent s = some .host ∧ step s = hostStep (takeTurn s)) ∨
    (nextAgent s = none ∧ step s = .next s) := by
  cases h : nextAgent s with
  | none => exact .inr (.inr ⟨rfl, by simp only [step, move, h]⟩)
  | some a =>
    cases a with
    | engine => exact .inl ⟨rfl, step_engine h⟩
    | host => exact .inr (.inl ⟨rfl, step_host h⟩)

/-- Everything the state after a step can be: a performed command's effect with BUSY cleared, an ILLEGAL report, a host read,
write, reset or poll, or the same state. -/
theorem step_effect {s t : State} (h : step s = .next t) :
    (nextAgent s = some .engine ∧
      ∃ i u, decode s.cmdl = .ok i ∧ Effect i (takeTurn s) u ∧ t = { u with busy := false }) ∨
    (nextAgent s = some .engine ∧ t = { takeTurn s with err := 1, busy := false }) ∨
    (nextAgent s = some .host ∧
      ((∃ r rest, s.host = .read (Reg.addr r) 4 :: rest ∧ t = memRead ((takeTurn s).setHost rest) r) ∨
        (∃ r v rest, s.host = .write (Reg.addr r) 4 v :: rest ∧ Written ((takeTurn s).setHost rest) r v t) ∨
        (∃ rest, s.host = .reset :: rest ∧ t = resetEvent ((takeTurn s).setHost rest)) ∨
        (∃ rest, s.host = .poll :: rest ∧ t = pollRead (takeTurn s) rest))) ∨
    (nextAgent s = none ∧ t = s) := by
  obtain ⟨ha, hs⟩ | ⟨ha, hs⟩ | ⟨ha, hs⟩ := step_cases s
  · rw [hs] at h
    obtain ⟨i, u, hd, -, hu, he⟩ | ⟨e, hd, he⟩ := engineStep_cases (takeTurn s)
    · rw [he] at h
      cases h
      exact .inl ⟨ha, i, u, by simpa using hd, hu, rfl⟩
    · rw [he] at h
      cases h
      exact .inr (.inl ⟨ha, rfl⟩)
  · rw [hs] at h
    have hc := hostStep_cases h
    simp only [takeTurn_host] at hc
    refine .inr (.inr (.inl ⟨ha, ?_⟩))
    obtain ⟨h0, -⟩ | h | ⟨r, v, rest, h', rfl⟩ | h | h := hc
    · exact absurd h0 (nextAgent_host ha)
    · exact .inl h
    · exact .inr (.inl ⟨r, v, rest, h', memWrite_written _ _ _⟩)
    · exact .inr (.inr (.inl h))
    · exact .inr (.inr (.inr h))
  · rw [hs] at h
    cases h
    exact .inr (.inr (.inr ⟨ha, rfl⟩))

/-! ### Runs -/

theorem run_next (M : Host.Core) (k : Nat) {s t : M.State} (h : M.step s = .next t) : M.run (k + 1) s = M.run k t := by
  simp only [Host.Core.run, h]

theorem run_fault (M : Host.Core) (k : Nat) {s : M.State} {e : M.Fault} (h : M.step s = .fault e) :
    M.run (k + 1) s = .fault e := by
  simp only [Host.Core.run, h]

theorem run_refused (M : Host.Core) (k : Nat) {s : M.State} {e : M.Refusal} (h : M.step s = .refused e) :
    M.run (k + 1) s = .refused e := by
  simp only [Host.Core.run, h]

/-- A run that starts with a step of the machine. -/
theorem run_step (k : Nat) {s t : State} (h : step s = .next t) : core.run (k + 1) s = core.run k t :=
  run_next core k h

/-- A run goes on from where a shorter one got. -/
theorem run_add (j : Nat) : ∀ {i : Nat} {s t : State}, core.run i s = .next t → core.run (i + j) s = core.run j t
  | 0, s, t, h => by
    cases h
    rw [Nat.zero_add]
  | i + 1, s, t, h => by
    rw [show i + 1 + j = (i + j) + 1 by omega]
    cases hs : step s with
    | next u =>
      rw [run_step i hs] at h
      rw [run_step (i + j) hs]
      exact run_add j h
    | fault e =>
      rw [run_fault core i hs] at h
      cases h
    | refused e =>
      rw [run_refused core i hs] at h
      cases h

/-- With a command word placed for the next step, that step is the engine step on it and the state's own turns are kept. -/
theorem step_withFetchWord (s : State) (nbits w : Nat) :
    step (s.withFetchWord nbits w) =
      engineStep { s with cmdl := BitVec.ofNat 32 (w % 2 ^ nbits), busy := true } := by
  have h : nextAgent (s.withFetchWord nbits w) = some .engine := by
    cases hh : s.host <;> simp [nextAgent, State.withFetchWord, latchNext, hh]
  rw [step_engine h]
  rfl

end Sys2Proof.Machine
end

