-- ==== Sys2Proof/Laws/Transforms.lean ====
section
/-! SUPPORT. What each transform does to one entry of the state. -/

namespace Sys2Proof.Machine

@[simp] theorem entry_subBytes (s : StateMatrix) (r c : Fin 4) :
    entry (subBytes s) r c = subByte (entry s r c) := entry_matrixOf _ r c

@[simp] theorem entry_invSubBytes (s : StateMatrix) (r c : Fin 4) :
    entry (invSubBytes s) r c = invSubByte (entry s r c) := entry_matrixOf _ r c

@[simp] theorem entry_shiftRows (s : StateMatrix) (r c : Fin 4) :
    entry (shiftRows s) r c = entry s r (c + r) := entry_matrixOf _ r c

@[simp] theorem entry_invShiftRows (s : StateMatrix) (r c : Fin 4) :
    entry (invShiftRows s) r c = entry s r (c - r) := by
  rw [invShiftRows, entry_matrixOf]
  congr 1
  ext
  simp only [Fin.sub_def]
  omega

theorem get_mixColumns (s : StateMatrix) (c : Fin 4) :
    (mixColumns s).get c = Quad.ofFn fun r => rowTimesColumn (mixMatrix.get r) (s.get c) := get_matrixOf _ c

theorem get_invMixColumns (s : StateMatrix) (c : Fin 4) :
    (invMixColumns s).get c = Quad.ofFn fun r => rowTimesColumn (invMixMatrix.get r) (s.get c) := get_matrixOf _ c

@[simp] theorem entry_addRoundKey (s : StateMatrix) (w : Schedule) (rnd : Fin 11) (r c : Fin 4) :
    entry (addRoundKey s w rnd) r c = entry s r c ^^^ byteOf r w[4 * rnd.val + c.val] := by
  simp [addRoundKey, gfAdd]

end Sys2Proof.Machine
end

