-- ==== Sys2Proof/Tests/Slice0.lean ====
section
/-! SUPPORT. The model's own tests. Expected values are 95_test_vectors.md's (V..) or the spec's rules; then, for every
obligation with hypotheses, a concrete state and operands that meet them. -/

namespace Sys2Proof.Tests

open Sys2Proof.Machine

/-! ### States to test on -/

/-- The block 000102030405060708090a0b0c0d0e0f. -/
def countBlock : Block :=
  #v[0x00, 0x01, 0x02, 0x03, 0x04, 0x05, 0x06, 0x07, 0x08, 0x09, 0x0a, 0x0b, 0x0c, 0x0d, 0x0e, 0x0f]

/-- Idle, no key schedule, OPA = 0x57, OPB = 0x13, the key and the block 000102030405060708090a0b0c0d0e0f. -/
def idle : State :=
  { cmdl := 0, busy := false, ksv := false, err := 0, ovr := false, opa := 0x57, opb := 0x13, res := 0
    key := ⟨0x00010203, 0x04050607, 0x08090a0b, 0x0c0d0e0f⟩
    state := load countBlock
    rk := Vector.replicate 44 0
    host := [], turns := [], rdata := none, draws := 0 }

/-- The same with the key expanded. -/
def keyed : State := { idle with ksv := true, rk := expandKey countBlock }

/-- The command `w` latched in `s`. -/
def latched (s : State) (w : Word) : State := { s with cmdl := w, busy := true }

/-- One host line, on its turn, in `s`. -/
def hostTurn (s : State) (op : HostOp) : State := { s with host := [op], turns := [.host] }

/-- What a field reads after one step; nothing if the machine stops. -/
def afterStep {α : Type} (s : State) (f : State → α) : Option α :=
  match step s with
  | .next t => some (f t)
  | .fault _ => none
  | .refused _ => none

/-- What a field reads after the command `w` is executed in `s` by one step. -/
def run {α : Type} (s : State) (w : Nat) (f : State → α) : Option α := afterStep (s.withFetchWord 32 w) f

/-- Column `c` of the state as the host sees it. -/
def column (c : Fin 4) (s : State) : Word := stateWord s.state c

/-! ### Well-formedness refuses a round index above 10 (R83) -/

theorem test_wf_refuses_round_11 : (Instr.addRoundKey 11).wf = false := by decide
theorem test_wf_refuses_round_15 : (Instr.addRoundKey 15).wf = false := by decide
theorem test_wf_admits_round_10 : (Instr.addRoundKey 10).wf = true := by decide

/-! ### Words written out bit by bit: RSV (20 bits), RND (4 bits), OPC (8 bits) of R80, R82 -/

theorem test_decode_NOP : decode 0b00000000000000000000_0000_00000000 = .ok .nop := by rfl
theorem test_decode_GF_ADD : decode 0b00000000000000000000_0000_00000001 = .ok .gfAdd := by rfl
theorem test_decode_GF_XTIME : decode 0b00000000000000000000_0000_00000010 = .ok .gfXtime := by rfl
theorem test_decode_GF_MUL : decode 0b00000000000000000000_0000_00000011 = .ok .gfMul := by rfl
theorem test_decode_SBOX : decode 0b00000000000000000000_0000_00000100 = .ok .sbox := by rfl
theorem test_decode_INV_SBOX : decode 0b00000000000000000000_0000_00000101 = .ok .invSbox := by rfl
theorem test_decode_SUB_BYTES : decode 0b00000000000000000000_0000_00010000 = .ok .subBytes := by rfl
theorem test_decode_INV_SUB_BYTES : decode 0b00000000000000000000_0000_00010001 = .ok .invSubBytes := by rfl
theorem test_decode_SHIFT_ROWS : decode 0b00000000000000000000_0000_00010010 = .ok .shiftRows := by rfl
theorem test_decode_INV_SHIFT_ROWS : decode 0b00000000000000000000_0000_00010011 = .ok .invShiftRows := by rfl
theorem test_decode_MIX_COLUMNS : decode 0b00000000000000000000_0000_00010100 = .ok .mixColumns := by rfl
theorem test_decode_INV_MIX_COLUMNS : decode 0b00000000000000000000_0000_00010101 = .ok .invMixColumns := by rfl
theorem test_decode_ADD_ROUND_KEY : decode 0b00000000000000000000_0110_00010110 = .ok (.addRoundKey 6) := by rfl
theorem test_decode_EXPAND_KEY : decode 0b00000000000000000000_0000_00100000 = .ok .expandKey := by rfl
theorem test_decode_ENCRYPT : decode 0b00000000000000000000_0000_00110000 = .ok .encrypt := by rfl
theorem test_decode_DECRYPT : decode 0b00000000000000000000_0000_00110001 = .ok .decrypt := by rfl
theorem test_decodeTableWord : decodeTableWord 32 0x00000316 = some (.addRoundKey 3) := by rfl

/-- The illegal words of V83 to V93 with the check of R85 each fails. -/
theorem test_decode_refuses :
    decode 0x00000B16 = .error .roundOutOfRange ∧ decode 0x00000130 = .error .roundNotZero ∧
    decode 0x00001030 = .error .reservedBits ∧ decode 0x00000006 = .error .unknownOpcode ∧
    decode 0x000000FF = .error .unknownOpcode ∧ decode 0x80000031 = .error .reservedBits ∧
    decode 0x00000100 = .error .roundNotZero := by refine ⟨?_, ?_, ?_, ?_, ?_, ?_, ?_⟩ <;> rfl

/-! ### Commands, one step each (95_test_vectors.md sections 1 to 6) -/

theorem test_NOP_clears_ERR_and_BUSY :
    run { idle with err := 2 } 0x00 statusWord = some 0x00000000 := by decide
theorem test_GF_ADD : run idle 0x01 State.res = some 0x44 := by decide
theorem test_GF_XTIME_V2 : run { idle with opa := 0xae } 0x02 State.res = some 0x47 := by decide
theorem test_GF_XTIME_V12 : run { idle with opa := 0x7f } 0x02 State.res = some 0xfe := by decide
theorem test_GF_MUL_V5 : run idle 0x03 State.res = some 0xfe := by decide
theorem test_GF_MUL_V6 : run { idle with opb := 0x83 } 0x03 State.res = some 0xc1 := by decide
theorem test_SBOX_V22 : run { idle with opa := 0x53 } 0x04 State.res = some 0xed := by decide
theorem test_SBOX_V23 : run { idle with opa := 0xff } 0x04 State.res = some 0x16 := by decide
theorem test_INV_SBOX_V26 : run { idle with opa := 0xed } 0x05 State.res = some 0x53 := by decide
theorem test_INV_SBOX_V25 : run { idle with opa := 0x00 } 0x05 State.res = some 0x52 := by decide
theorem test_SUB_BYTES_V60 : run idle 0x10 (column 2) = some 0x3001672b := by decide
theorem test_INV_SUB_BYTES_V61 : run idle 0x11 (column 1) = some 0x3036a538 := by decide
theorem test_SHIFT_ROWS_V62 : run idle 0x12 (column 1) = some 0x04090e03 := by decide
theorem test_INV_SHIFT_ROWS_V63 : run idle 0x13 (column 1) = some 0x04010e0b := by decide
theorem test_MIX_COLUMNS_V66 : run idle 0x14 (column 0) = some 0x02070005 := by decide
theorem test_INV_MIX_COLUMNS_V67 : run idle 0x15 (column 3) = some 0x06030401 := by decide
theorem test_ADD_ROUND_KEY_V68 : run keyed 0x116 (column 3) = some 0xdaa678f1 := by decide +kernel
theorem test_ADD_ROUND_KEY_V82_V83 :
    run idle 0x016 statusWord = some 0x00000008 ∧ run idle 0xB16 statusWord = some 0x00000004 := by decide
theorem test_EXPAND_KEY_V32 :
    run idle 0x20 (fun s => (s.rk[4], s.rk[43])) = some (0xd6aa74fd, 0x4d2b30c5) := by decide +kernel
theorem test_ENCRYPT_V41 : run keyed 0x30 (column 0) = some 0x0a940bb5 := by decide +kernel
theorem test_ENCRYPT_V81 : run idle 0x30 (fun s => (statusWord s, column 1 s)) = some (0x00000008, 0x04050607) := by decide
theorem test_DECRYPT_V46 : run keyed 0x31 (column 3) = some 0xf52dbe19 := by decide +kernel
theorem test_illegal_V91 :
    run keyed 0x80000031 (fun s => (statusWord s, column 3 s)) = some (0x00000006, 0x0c0d0e0f) := by decide

/-! ### The host (95_test_vectors.md section 7) -/

theorem test_RD_STATUS_V94 :
    afterStep (hostTurn { latched idle 0 with ksv := true } (rd .status)) State.rdata = some (some 0x00000003) := by decide
theorem test_WR_OPA_V95 :
    afterStep (hostTurn (latched idle 0) (wr .opa 0xAA)) (fun s => (s.opa, s.ovr)) = some (0x57, true) := by decide
theorem test_RD_STATUS_V96 :
    afterStep (hostTurn { idle with ksv := true, ovr := true } (rd .status)) State.rdata = some (some 0x00000102) := by decide
theorem test_WR_STATUS_V97_V98 :
    afterStep (hostTurn { idle with ovr := true } (wr .status 0x00000100)) State.ovr = some false ∧
    afterStep (hostTurn { idle with ovr := true } (wr .status 0x000000FF)) State.ovr = some true := by decide
theorem test_RD_KEY2_V99 : afterStep (hostTurn idle (rd (.key 2))) State.rdata = some (some 0x00000000) := by decide
theorem test_WR_OPA_V99a : afterStep (hostTurn idle (wr .opa 0x12345657)) State.opa = some 0x57 := by decide
theorem test_RESET_V99c :
    afterStep (hostTurn { latched keyed 0x30 with ovr := true } .reset) statusWord = some 0x00000000 := by decide
theorem test_WR_STATE1 :
    afterStep (hostTurn idle (wr (.state 1) 0xAABBCCDD)) (fun s => (store s.state)[6]) = some 0xCC := by decide
theorem test_CMD_write_sets_BUSY :
    afterStep (hostTurn idle (cmdOp .encrypt)) (fun s => (s.cmdl, s.busy)) = some (0x00000030, true) := by decide
theorem test_reserved_access_is_refused :
    (match step (hostTurn idle (.read 0x1B0 4)) with
      | .refused e => e == .accessReserved 0x1B0
      | .next _ => false
      | .fault _ => false) = true := by decide
theorem test_host_program_expansions :
    loadKeyOps countBlock = [.write 0x020 4 0x00010203, .write 0x024 4 0x04050607, .write 0x028 4 0x08090a0b,
      .write 0x02C 4 0x0c0d0e0f] ∧
    runOps (.addRoundKey 1) = [.write 0x000 4 0x00000116, .poll] := by decide

/-! ### Each statement's hypotheses are met -/

theorem witness_DecodeOfEncodeIsTheCommand : (Instr.addRoundKey 10).wf = true ∧ Instr.encrypt.wf = true := by decide
theorem witness_DecodedWordIsTheCommandsOnlyWord : decode 0x00000A16 = .ok (.addRoundKey 10) := by rfl
theorem witness_StepRunsTheLatchedCommand :
    nextAgent (latched keyed 0x30) = some .engine ∧ decode (latched keyed 0x30).cmdl = .ok .encrypt := ⟨rfl, rfl⟩
theorem witness_EngineMovesOnlyWhileBusy :
    nextAgent (latched idle 0) = some .engine ∧ (latched idle 0).busy = true ∧ (latched idle 0).host = [] ∧
    (hostTurn (latched idle 0) .poll).busy = true ∧ (hostTurn (latched idle 0) .poll).host ≠ [] := by
  refine ⟨rfl, rfl, rfl, rfl, ?_⟩
  decide
theorem witness_CommandErrorHasNoPartialEffect :
    engineStep (latched idle 0x30) = .next { idle with cmdl := 0x30, err := 2 } ∧ (2 : BitVec 3) ≠ 0 := by
  refine ⟨rfl, ?_⟩
  decide
theorem witness_EngineStepFrame :
    engineStep (latched idle 0x01) = .next { idle with cmdl := 0x01, res := 0x57 ^^^ 0x13 } := rfl
theorem witness_RkKsvErr_expandKey :
    afterStep (latched idle 0x20) (fun s => (decide (s.rk ≠ idle.rk), s.ksv)) = some (true, true) ∧ idle.ksv = false := by
  decide +kernel
theorem witness_RkKsvErr_reset :
    afterStep (hostTurn { keyed with err := 2 } .reset) (fun s => (s.ksv, s.err)) = some (false, 0) ∧ keyed.ksv = true := by decide
theorem witness_RkKsvErr_engine : afterStep (latched idle 0x30) State.err = some 2 ∧ idle.err = 0 := by decide
theorem witness_Ovr_set :
    afterStep (hostTurn (latched idle 0) (wr (.key 3) 1)) State.ovr = some true ∧ idle.ovr = false := by decide
theorem witness_Ovr_cleared :
    afterStep (hostTurn { idle with ovr := true } (wr .status 0x100)) State.ovr = some false ∧
    afterStep (hostTurn { idle with ovr := true } .reset) State.ovr = some false := by decide
theorem witness_GfMul_inverse : (0x53 : Byte) ≠ 0 ∧ gfMul 0x53 0xca = 1 := by decide
/-- For every opcode, a state whose latched word has it and is not the command's word. -/
theorem witness_otherWords :
    ∀ opc ∈ ([0x00, 0x01, 0x02, 0x03, 0x04, 0x05, 0x10, 0x11, 0x12, 0x13, 0x14, 0x15, 0x20, 0x30, 0x31] : List Byte),
      (latched idle (0x00000100 ||| opc.zeroExtend 32)).cmdl.extractLsb' 0 8 = opc ∧
      (latched idle (0x00000100 ||| opc.zeroExtend 32)).cmdl ≠ opc.zeroExtend 32 := by decide
theorem witness_ShiftRows_constant_rows :
    ∀ r c d, entry (matrixOf fun r _ => BitVec.ofNat 8 r.val) r c = entry (matrixOf fun r _ => BitVec.ofNat 8 r.val) r d := by
  decide
theorem witness_columns :
    idle.state.get 1 = ⟨0x04, 0x05, 0x06, 0x07⟩ ∧
    (load (Vector.replicate 16 0xc6)).get 2 = ⟨0xc6, 0xc6, 0xc6, 0xc6⟩ ∧
    (⟨⟨0xdb, 0x13, 0x53, 0x45⟩, ⟨0x8e, 0x4d, 0xa1, 0xbc⟩, ⟨0, 0, 0, 0⟩, ⟨0, 0, 0, 0⟩⟩ : StateMatrix).get 0 =
      ⟨0xdb, 0x13, 0x53, 0x45⟩ ∧
    (⟨⟨0xdb, 0x13, 0x53, 0x45⟩, ⟨0x8e, 0x4d, 0xa1, 0xbc⟩, ⟨0, 0, 0, 0⟩, ⟨0, 0, 0, 0⟩⟩ : StateMatrix).get 1 =
      ⟨0x8e, 0x4d, 0xa1, 0xbc⟩ := by decide
theorem witness_AddRoundKeyCommand :
    (10 : BitVec 4).toNat ≤ 10 ∧ keyed.ksv = true ∧ idle.ksv = false ∧ 10 < (11 : BitVec 4).toNat ∧
    (latched idle 0xB16).cmdl.extractLsb' 0 8 = 0x16 ∧ 10 < ((latched idle 0xB16).cmdl.extractLsb' 8 4).toNat ∧
    (latched idle 0x1016).cmdl.extractLsb' 0 8 = 0x16 ∧ (latched idle 0x1016).cmdl.extractLsb' 12 20 ≠ 0 := by decide
theorem witness_AddRoundKeyCommand_key :
    keyed.ksv = true ∧ keyed.rk = expandKey countBlock ∧ keyed.state = load countBlock := ⟨rfl, rfl, rfl⟩
theorem witness_AddRoundKeyCommand_V68 :
    keyed.ksv = true ∧
    keyed.rk = expandKey #v[0x00, 0x01, 0x02, 0x03, 0x04, 0x05, 0x06, 0x07, 0x08, 0x09, 0x0a, 0x0b, 0x0c, 0x0d, 0x0e, 0x0f] ∧
    keyed.state = load #v[0x00, 0x01, 0x02, 0x03, 0x04, 0x05, 0x06, 0x07, 0x08, 0x09, 0x0a, 0x0b, 0x0c, 0x0d, 0x0e, 0x0f] :=
  ⟨rfl, rfl, rfl⟩
theorem witness_ExpandKeyCommand :
    ({ idle with key := ⟨0, 0, 0, 0⟩ } : State).key = ⟨0, 0, 0, 0⟩ ∧
    ({ idle with key := ⟨0x2b7e1516, 0x28aed2a6, 0xabf71588, 0x09cf4f3c⟩ } : State).key =
      ⟨0x2b7e1516, 0x28aed2a6, 0xabf71588, 0x09cf4f3c⟩ := ⟨rfl, rfl⟩
theorem witness_cipher_commands : keyed.ksv = true ∧ idle.ksv = false := ⟨rfl, rfl⟩
/-- The known answers' hypotheses: for any block, a state with KSV = 1 that holds it under the schedule of a key. -/
theorem witness_known_answers (b k : Block) :
    ({ keyed with rk := expandKey k, state := load b } : State).ksv = true ∧
    ({ keyed with rk := expandKey k, state := load b } : State).rk = expandKey k ∧
    ({ keyed with rk := expandKey k, state := load b } : State).state = load b := ⟨rfl, rfl, rfl⟩
theorem witness_NopCommand :
    idle.busy = false ∧ (latched { idle with err := 2 } 0).cmdl = 0 ∧ (latched { idle with err := 2 } 0).ksv = false ∧
    (latched { idle with err := 2 } 0).ovr = false ∧ (latched { idle with err := 2 } 0).err = 2 :=
  ⟨rfl, rfl, rfl, rfl, rfl⟩
theorem witness_KeyRegistersReadOnlyByExpandKey :
    exec .encrypt idle = .next { idle with err := 2 } ∧ Instr.encrypt ≠ .expandKey ∧ idle.busy = false ∧
    hiddenWhileBusy (.key 0) = false := by
  refine ⟨rfl, ?_, rfl, rfl⟩
  decide
theorem witness_accesses :
    nextAgent (hostTurn (latched idle 0) (.read 0x1AC 4)) = some .host ∧
    nextAgent (hostTurn idle (.write 0x1B0 4 0)) = some .host ∧
    access 0x1AC 4 = .ok (.rkw 43) ∧ access 0x1B0 4 = .error (.accessReserved 0x1B0) ∧
    access 0x002 4 = .error (.accessMisaligned 0x002) ∧ access 0x000 2 = .error (.accessWidth 0x000 2) ∧
    access 0x014 4 = .error (.accessReserved 0x014) := ⟨rfl, rfl, rfl, rfl, rfl, rfl, rfl⟩
/-- Any access can be the host's next one, with BUSY = 1 and with BUSY = 0. -/
theorem witness_host_turn (op : HostOp) :
    nextAgent (hostTurn (latched idle 0) op) = some .host ∧ (hostTurn (latched idle 0) op).busy = true ∧
    (hostTurn (latched idle 0) op).host = [op] ∧
    nextAgent (hostTurn idle op) = some .host ∧ (hostTurn idle op).busy = false ∧ (hostTurn idle op).host = [op] :=
  ⟨rfl, rfl, rfl, rfl, rfl, rfl⟩
theorem witness_PowerOnStateIsIdle : idle.busy = false ∧ idle.host = [] := ⟨rfl, rfl⟩
theorem witness_BusyEnds :
    (hostTurn (latched keyed 0x30) .poll).busy = true ∧
    ∀ op ∈ (hostTurn (latched keyed 0x30) .poll).host, op.legal = true ∧ op ≠ .reset := by decide
theorem witness_PollEnds : (hostTurn (latched keyed 0x30) .poll).host = .poll :: [] := rfl
theorem witness_LegalHostNeverStops :
    ∀ op ∈ (hostTurn idle (wr (.rkw 43) 0)).host, op.legal = true := by decide
theorem witness_HostKeepingTheBusyRuleNeverOverruns :
    respectsBusy false (loadKeyOps countBlock ++ runOps .expandKey ++ readBlkOps) = true ∧
    respectsBusy true [.poll, wr .opa 0x57] = true ∧ respectsBusy true [wr .opa 0x57] = false ∧ idle.ovr = false ∧
    afterStep { latched idle 0 with host := [.poll, wr .opa 0x57], turns := [.host] } State.ovr = some false := by decide
theorem witness_InterleavingDoesNotMatterForPollingHosts :
    idle.busy = false ∧ runForm (loadKeyOps countBlock ++ runOps .expandKey ++ readBlkOps) = true ∧
    ∀ op ∈ loadKeyOps countBlock ++ runOps .expandKey ++ readBlkOps, op.legal = true := by decide
theorem witness_StepKeepsTheInvariant :
    idle.Inv ∧ step (latched idle 0x01) = .next { idle with cmdl := 0x01, res := 0x57 ^^^ 0x13 } := by
  refine ⟨⟨Nat.zero_le 2, fun h => ?_⟩, rfl⟩
  cases h
theorem witness_StepKeepsTheInvariant_keyed : keyed.Inv := by
  refine ⟨Nat.zero_le 2, fun _ => ?_⟩
  decide +kernel

end Sys2Proof.Tests
end

section
/-! PROOF. Load and Store (10_state.md R33, R34). -/

namespace Sys2Proof.Machine

/-- Byte `i` of a block stands in the matrix at row `i mod 4`, column `i / 4`. -/
theorem entry_load_mod_div (b : Block) (i : Nat) (hi : i < 16) :
    entry (load b) ⟨i % 4, by omega⟩ ⟨i / 4, by omega⟩ = b[i] := by
  simp [Nat.div_add_mod]

theorem store_load (b : Block) : store (load b) = b := by
  refine Vector.ext fun i hi => ?_
  rw [getElem_store, entry_load_mod_div b i hi]

theorem byteOf_stateWord (m : StateMatrix) (c k : Fin 4) : byteOf k (stateWord m c) = entry m k c := by
  rw [stateWord, byteOf_wordOf, entry]

/-- Settles O22: `load` and `store` read entry by entry, and 4 (i / 4) + i mod 4 = i. -/
theorem loadAndStoreAreColumnMajor : Obligations.LoadAndStoreAreColumnMajor :=
  ⟨fun b i => entry_load_mod_div b i i.isLt, fun m i => getElem_store m i i.isLt, store_load, load_store,
    fun b c k => by rw [byteOf_stateWord, entry_load]⟩

end Sys2Proof.Machine
end

section
/-! PROOF. Host accesses (20_memory.md R52, R55 to R59). -/

namespace Sys2Proof.Machine

/-! ### Which accesses have a step -/

/-- An access names a register exactly if it is 32 bits wide, aligned and mapped (R52). Alignment follows from the map (R50). -/
theorem exists_access_eq_ok {addr width : Nat} :
    (∃ r, access addr width = .ok r) ↔ width = 4 ∧ addr % 4 = 0 ∧ ∃ r : Reg, r.addr = addr := by
  constructor
  · rintro ⟨r, h⟩
    obtain ⟨hw, rfl⟩ := access_eq_ok.mp h
    exact ⟨hw, r.addr_aligned, r, rfl⟩
  · rintro ⟨hw, -, r, hr⟩
    exact ⟨r, access_eq_ok.mpr ⟨hw, hr⟩⟩

/-- A host's read or write has a next state if `access` names a register, and is refused with its reason if not. -/
theorem hostStep_access {s : State} {addr width : Nat} {v : Word} {rest : List HostOp}
    (hh : s.host = .read addr width :: rest ∨ s.host = .write addr width v :: rest) :
    (∃ r t, access addr width = .ok r ∧ hostStep s = .next t) ∨
    (∃ e, access addr width = .error e ∧ hostStep s = .refused e) := by
  cases ha : access addr width with
  | ok r =>
    obtain hh | hh := hh
    · exact .inl ⟨r, memRead (s.setHost rest) r, rfl, by simp only [hostStep, hh, ha]⟩
    · exact .inl ⟨r, memWrite (s.setHost rest) r v, rfl, by simp only [hostStep, hh, ha]⟩
  | error e => obtain hh | hh := hh <;> exact .inr ⟨e, rfl, by simp only [hostStep, hh, ha]⟩

/-- Settles O43: a step on the host's turn is what `access` answers, a register or a reason to refuse. -/
theorem onlyAlignedMappedWordAccessesHaveAStep : Obligations.OnlyAlignedMappedWordAccessesHaveAStep := by
  intro s addr width v rest hn hh
  have hh' : (takeTurn s).host = .read addr width :: rest ∨ (takeTurn s).host = .write addr width v :: rest := by
    rwa [takeTurn_host]
  rw [step_host hn, ← exists_access_eq_ok]
  obtain ⟨r, t, ha, hs⟩ | ⟨e, ha, hs⟩ := hostStep_access hh'
  · simp [ha, hs]
  · simp [ha, hs]

/-! ### A write to a mapped register -/

theorem step_write {s : State} {r : Reg} {v : Word} {rest : List HostOp} (hn : nextAgent s = some .host)
    (hh : s.host = .write r.addr 4 v :: rest) : step s = .next (memWrite ((takeTurn s).setHost rest) r v) := by
  simp only [step_host hn, hostStep, takeTurn_host, hh, access_addr]

/-- While BUSY = 0 a write needs no turn. -/
theorem step_write_idle {s : State} {r : Reg} {v : Word} {rest : List HostOp} (hb : s.busy = false)
    (hh : s.host = .write r.addr 4 v :: rest) : step s = .next (memWrite (s.setHost rest) r v) := by
  have hn : nextAgent s = some .host := by simp [nextAgent_idle hb, hh]
  rw [step_write hn hh, takeTurn_idle hb]

/-- While BUSY = 0 a write to a protected register has the effect it names (R55, R56). -/
theorem step_write_accepted {s accepted : State} {r : Reg} {v : Word} {rest : List HostOp} (hb : s.busy = false)
    (hh : s.host = .write r.addr 4 v :: rest)
    (hw : memWrite (s.setHost rest) r v = unlessBusy (s.setHost rest) accepted) : step s = .next accepted := by
  have hb' : (s.setHost rest).busy = false := hb
  rw [step_write_idle hb hh, hw, unlessBusy_idle hb']

/-- While BUSY = 1 a write to a protected register is dropped, whatever it would have set (R58). -/
theorem memWrite_busy {s : State} {r : Reg} (v : Word) (hb : s.busy = true)
    (hr : r = .cmd ∨ r = .opa ∨ r = .opb ∨ (∃ j, r = .key j) ∨ (∃ c, r = .state c)) :
    memWrite s r v = s.setOvr true := by
  obtain rfl | rfl | rfl | ⟨j, rfl⟩ | ⟨c, rfl⟩ := hr <;> exact unlessBusy_busy hb

theorem memWrite_status (s : State) (v : Word) :
    memWrite s .status v = { s with ovr := if v.getLsbD 8 then false else s.ovr } := by
  rw [memWrite, clearsOvr]
  cases v.getLsbD 8 <;> rfl

/-- RES and the round-key words are read-only (R59). -/
theorem memWrite_readOnly (s : State) {r : Reg} (v : Word) (hr : r = .res ∨ ∃ i, r = .rkw i) : memWrite s r v = s := by
  obtain rfl | ⟨i, rfl⟩ := hr <;> rfl

theorem entry_setStateWord_same (m : StateMatrix) (r c : Fin 4) (v : Word) :
    entry (setStateWord m c v) r c = byteOf r v := by
  simp [entry, setStateWord, columnOf]

theorem entry_setStateWord_other (m : StateMatrix) (r : Fin 4) {c d : Fin 4} (h : d ≠ c) (v : Word) :
    entry (setStateWord m c v) r d = entry m r d := by
  simp [entry, setStateWord, h]

/-! ### The rules of the host's writes -/

/-- Settles O46: the write to CMD is accepted, as BUSY = 0. -/
theorem cmdWriteLatchesAnyWord : Obligations.CmdWriteLatchesAnyWord :=
  fun _ _ _ hb hh => step_write_accepted (r := .cmd) hb hh rfl

/-- Settles O47: each write is accepted, as BUSY = 0; a group of four changes in the written member only. -/
theorem dataWritesSetTheirRegister : Obligations.DataWritesSetTheirRegister := by
  intro s v rest hb
  refine ⟨fun hh => ?opa, fun hh => ?opb, fun j hh => ?key, fun c hh => ?state⟩
  case opa => exact step_write_accepted (r := .opa) hb hh rfl
  case opb => exact step_write_accepted (r := .opb) hb hh rfl
  case key =>
    refine ⟨(s.setHost rest).setKey (s.key.set j v), step_write_accepted (r := .key j) hb hh rfl, rfl, ?_, fun i hi => ?_⟩
    · simp
    · simp [hi]
  case state =>
    exact ⟨(s.setHost rest).setState (setStateWord s.state c v), step_write_accepted (r := .state c) hb hh rfl, rfl,
      fun r => entry_setStateWord_same s.state r c v, fun r d hd => entry_setStateWord_other s.state r hd v⟩

/-- Settles O48: the turn leaves OVR, and the write changes it as bit 8 says. -/
theorem statusWriteClearsOnlyOvr : Obligations.StatusWriteClearsOnlyOvr := by
  intro s v rest hn hh
  rw [step_write (r := .status) hn hh, memWrite_status, State.setHost_ovr, takeTurn_ovr]
  rfl

/-- Settles O49: the five kinds of protected register share `unlessBusy`. -/
theorem writesWhileBusyAreDropped : Obligations.WritesWhileBusyAreDropped := by
  intro s r v rest hb hn hh hr
  have hb' : ((takeTurn s).setHost rest).busy = true := by simpa using hb
  rw [step_write hn hh, memWrite_busy v hb' hr, takeTurn_of_busy hb]
  rfl

/-- Settles O50: only the turn and the host's program move. -/
theorem writesToReadOnlyRegistersAreIgnored : Obligations.WritesToReadOnlyRegistersAreIgnored := by
  intro s r v rest hn hh hr
  rw [step_write hn hh, memWrite_readOnly _ v hr]
  rfl

end Sys2Proof.Machine
end

section
/-! PROOF. Which words are legal, by fields and by match and mask (30_encoding.md R83). -/

namespace Sys2Proof

/-! ### A word put together from its fields (R80) -/

@[simp] theorem opcField_append (rsv : BitVec 20) (rnd : BitVec 4) (opc : Byte) :
    opcField ((rsv ++ rnd) ++ opc) = opc :=
  BitVec.extractLsb'_append_eq_right

@[simp] theorem rndField_append (rsv : BitVec 20) (rnd : BitVec 4) (opc : Byte) :
    rndField ((rsv ++ rnd) ++ opc) = rnd :=
  (BitVec.extractLsb'_append_eq_of_le (Nat.le_refl 8)).trans BitVec.extractLsb'_append_eq_right

@[simp] theorem rsvField_append (rsv : BitVec 20) (rnd : BitVec 4) (opc : Byte) :
    rsvField ((rsv ++ rnd) ++ opc) = rsv :=
  (BitVec.extractLsb'_append_eq_of_le (by decide : 8 ≤ 12)).trans BitVec.extractLsb'_append_eq_left

theorem eq_append_iff_fields {w : Word} {rsv : BitVec 20} {rnd : BitVec 4} {opc : Byte} :
    w = (rsv ++ rnd) ++ opc ↔ rsvField w = rsv ∧ rndField w = rnd ∧ opcField w = opc := by
  constructor
  · rintro rfl
    simp
  · rintro ⟨rfl, rfl, rfl⟩
    exact word_eq_fields w

/-- The mask 0xFFFFF0FF keeps RSV and OPC and clears RND. -/
theorem and_rndMask (w : Word) : w &&& 0xFFFFF0FF = (rsvField w ++ 0#4) ++ opcField w := by
  have hmask : (0xFFFFF0FF : Word) = (BitVec.allOnes 20 ++ 0#4) ++ BitVec.allOnes 8 := rfl
  calc w &&& 0xFFFFF0FF
      = ((rsvField w ++ rndField w) ++ opcField w) &&& ((BitVec.allOnes 20 ++ 0#4) ++ BitVec.allOnes 8) := by
        rw [← word_eq_fields w, hmask]
    _ = (rsvField w ++ 0#4) ++ opcField w := by
        simp only [BitVec.and_append, BitVec.and_allOnes, BitVec.and_zero]

/-! ### The row a word selects, and the check of its round index -/

/-- R83's condition on RND, by the row's OPC. -/
def RoundFits (opc : Byte) (rnd : BitVec 4) : Prop :=
  if opc = 0x16 then rnd.toNat ≤ 10 else rnd = 0

theorem roundFits_addRoundKey (rnd : BitVec 4) : RoundFits 0x16 rnd ↔ rnd.toNat ≤ 10 := by
  rw [RoundFits, if_pos rfl]

theorem roundFits_other {opc : Byte} (h : opc ≠ 0x16) (rnd : BitVec 4) : RoundFits opc rnd ↔ rnd = 0 := by
  rw [RoundFits, if_neg h]

/-- The decoder's last two checks (R85) are R83's condition on RND. -/
theorem round_checks_eq_ok {opc : Byte} {rnd : BitVec 4} {i j : Instr} :
    (if opc = 0x16 ∧ 10 < rnd.toNat then .error .roundOutOfRange
      else if opc ≠ 0x16 ∧ rnd ≠ 0 then .error .roundNotZero
      else .ok j : Except DecodeError Instr) = .ok i ↔ j = i ∧ RoundFits opc rnd := by
  by_cases hopc : opc = 0x16
  · subst hopc
    rw [roundFits_addRoundKey]
    by_cases hle : rnd.toNat ≤ 10
    · rw [if_neg fun h => hle.not_gt h.2, if_neg fun h => h.1 rfl, Except.ok.injEq, and_iff_left hle]
    · rw [if_pos ⟨rfl, not_le.mp hle⟩]
      simp only [reduceCtorEq, hle, and_false]
  · rw [roundFits_other hopc, if_neg fun h => hopc h.1]
    by_cases hrnd : rnd = 0
    · rw [if_neg fun h => h.2 hrnd, Except.ok.injEq, and_iff_left hrnd]
    · rw [if_pos ⟨hopc, hrnd⟩]
      simp only [reduceCtorEq, hrnd, and_false]

/-- What a decoded word is: its RSV is 0, its OPC and RND give the command, and its RND fits the row (R83, R85). -/
theorem decode_eq_ok {w : Word} {i : Instr} :
    decode w = .ok i ↔
      rsvField w = 0 ∧ ofOpcode (opcField w) (rndField w) = some i ∧ RoundFits (opcField w) (rndField w) := by
  by_cases hrsv : rsvField w = 0
  case neg => simp only [decode, ne_eq, hrsv, not_false_eq_true, if_true, reduceCtorEq, false_and]
  cases hi : ofOpcode (opcField w) (rndField w) with
  | none => simp only [decode, ne_eq, hrsv, not_true_eq_false, if_false, hi, reduceCtorEq, false_and, and_false]
  | some j => rw [decode, if_neg (not_not_intro hrsv), hi, round_checks_eq_ok, Option.some.injEq, and_iff_right hrsv]

theorem exists_ofOpcode_eq_some {opc : Byte} {rnd : BitVec 4} :
    (∃ i, ofOpcode opc rnd = some i) ↔ opc.toNat ∈ opcodes := by
  obtain ⟨hnone, hopc⟩ | ⟨i, hsome, hopc, -, -, -⟩ := ofOpcode_cases opc rnd
  · simp [hnone, hopc]
  · simp [hsome, hopc]

theorem opcode_of_ofOpcode {opc : Byte} {rnd : BitVec 4} {i : Instr} (h : ofOpcode opc rnd = some i) :
    i.opcode = opc := by
  obtain ⟨hnone, -⟩ | ⟨j, hsome, -, hopc, -, -⟩ := ofOpcode_cases opc rnd
  · simp [hnone] at h
  · obtain rfl : j = i := Option.some.inj (hsome.symm.trans h)
    exact hopc

/-- The command's RND is the field's: the operand of ADD_ROUND_KEY, and 0 on both sides for another row. -/
theorem rnd_of_ofOpcode {opc : Byte} {rnd : BitVec 4} {i : Instr} (h : ofOpcode opc rnd = some i)
    (hfit : RoundFits opc rnd) : i.rnd = rnd := by
  obtain ⟨hnone, -⟩ | ⟨j, hsome, -, -, hadd, hother⟩ := ofOpcode_cases opc rnd
  · simp [hnone] at h
  · obtain rfl : j = i := Option.some.inj (hsome.symm.trans h)
    by_cases hopc : opc = 0x16
    · rw [hadd hopc, Instr.rnd]
    · rw [(hother hopc).2, (roundFits_other hopc rnd).mp hfit]

/-! ### The two forms of legality -/

/-- Legality by fields. -/
theorem exists_decode_eq_ok {w : Word} :
    (∃ i, decode w = .ok i) ↔
      (opcField w).toNat ∈ opcodes ∧ rsvField w = 0 ∧ RoundFits (opcField w) (rndField w) := by
  simp only [decode_eq_ok, exists_and_right, exists_ofOpcode_eq_some, and_left_comm]

/-- The opcodes of R82's rows other than ADD_ROUND_KEY. -/
abbrev plainOpcodes : List Byte :=
  [0x00, 0x01, 0x02, 0x03, 0x04, 0x05, 0x10, 0x11, 0x12, 0x13, 0x14, 0x15, 0x20, 0x30, 0x31]

/-- Their match values: the OPC with RND and RSV 0. -/
abbrev plainWords : List Word := plainOpcodes.map fun opc => (0#20 ++ 0#4) ++ opc

theorem toNat_mem_opcodes_iff {opc : Byte} : opc.toNat ∈ opcodes ↔ opc ∈ plainOpcodes ∨ opc = 0x16 := by
  have hrows : opcodes.Perm ((0x16 :: plainOpcodes).map BitVec.toNat) := by decide
  rw [hrows.mem_iff, List.mem_map_of_injective fun _ _ => BitVec.eq_of_toNat_eq, List.mem_cons, or_comm]

/-- Of the rows but ADD_ROUND_KEY each has one legal word, with its OPC in bits 7:0 and 0 elsewhere. -/
theorem matches_plain_iff {w : Word} :
    (∃ m ∈ plainWords, w &&& 0xFFFFFFFF = m) ↔
      opcField w ∈ plainOpcodes ∧ rsvField w = 0 ∧ rndField w = 0 := by
  have hmask : w &&& 0xFFFFFFFF = w := BitVec.and_allOnes
  simp only [hmask, exists_eq_right', plainWords, List.mem_map]
  constructor
  · rintro ⟨opc, hopc, rfl⟩
    exact ⟨by rwa [opcField_append], rsvField_append .., rndField_append ..⟩
  · rintro ⟨hopc, hrsv, hrnd⟩
    exact ⟨opcField w, hopc, (eq_append_iff_fields.mpr ⟨hrsv, hrnd, rfl⟩).symm⟩

theorem matches_addRoundKey_iff {w : Word} :
    w &&& 0xFFFFF0FF = 0x00000016 ↔ opcField w = 0x16 ∧ rsvField w = 0 := by
  have hmatch : (0x00000016 : Word) = (0#20 ++ 0#4) ++ 0x16#8 := rfl
  rw [and_rndMask, hmatch, eq_append_iff_fields]
  simp [and_comm]

/-- Legality by match and mask. -/
theorem exists_decode_eq_ok_iff_matches {w : Word} :
    (∃ i, decode w = .ok i) ↔
      (∃ m ∈ plainWords, w &&& 0xFFFFFFFF = m) ∨
        (w &&& 0xFFFFF0FF = 0x00000016 ∧ (rndField w).toNat ≤ 10) := by
  rw [exists_decode_eq_ok, toNat_mem_opcodes_iff, matches_plain_iff, matches_addRoundKey_iff]
  by_cases hopc : opcField w = 0x16
  · have hplain : (0x16 : Byte) ∉ plainOpcodes := by decide
    simp only [hopc, hplain, roundFits_addRoundKey, or_true, true_and, false_and, false_or]
  · simp only [hopc, roundFits_other hopc, or_false, false_and]

/-- Settles O4: `decode_eq_ok` says when a word decodes; the rest is the opcode map and the match values' fields. -/
theorem legalWordsAreTheMatchingWords : Obligations.LegalWordsAreTheMatchingWords := by
  intro w
  refine ⟨exists_decode_eq_ok, exists_decode_eq_ok_iff_matches, fun i h => ?_⟩
  obtain ⟨-, hi, hfit⟩ := decode_eq_ok.mp h
  exact ⟨opcode_of_ofOpcode hi, rnd_of_ofOpcode hi hfit⟩

end Sys2Proof
end

section
/-! PROOF. GF(2^8) arithmetic and its three commands (40_gf_arith.md R101 to R104, R106 to R108). -/

namespace Sys2Proof

/-! ### The one word of a command without a round index (R82, R83) -/

theorem Instr.rnd_eq_zero {i : Instr} (hi : i.opcode ≠ 0x16) : i.rnd = 0 := by
  cases i with
  | addRoundKey rnd => exact absurd rfl hi
  | _ => rfl

/-- A legal word with the OPC of a row other than ADD_ROUND_KEY is that row's word. -/
theorem eq_encode_of_decode_eq_ok {w : Word} {i j : Instr} (hi : i.opcode ≠ 0x16) (hopc : opcField w = i.opcode)
    (hd : decode w = .ok j) : w = encode i := by
  obtain ⟨hrsv, -, hfit⟩ := decode_eq_ok.mp hd
  rw [hopc, roundFits_other hi] at hfit
  exact eq_append_iff_fields.mpr ⟨hrsv, hfit.trans (Instr.rnd_eq_zero hi).symm, hopc⟩

namespace Machine

theorem engineStep_of_decode {s t : State} {i : Instr} (hd : decode s.cmdl = .ok i) (he : exec i s = .next t) :
    engineStep s = .next { t with busy := false } := by
  simp only [engineStep, execute, hd, he]
  rfl

/-- Every other word with the OPC of such a command is ILLEGAL (R84). -/
theorem engineStep_otherWord {s : State} {i : Instr} (hi : i.opcode ≠ 0x16) (hopc : opcField s.cmdl = i.opcode)
    (hne : s.cmdl ≠ encode i) : engineStep s = .next { s with err := 1, busy := false } := by
  obtain ⟨j, -, hd, -⟩ | ⟨-, -, hstep⟩ := engineStep_cases s
  · exact absurd (eq_encode_of_decode_eq_ok hi hopc hd) hne
  · exact hstep

/-! ### Multiplication by x (R102) -/

/-- An addend taken under each of two bits: its two copies cancel, so the bits' XOR decides. -/
theorem ite_xor_bits (b c : Bool) (p q v : Byte) :
    (if b ^^ c then p ^^^ q ^^^ v else p ^^^ q) = (if b then p ^^^ v else p) ^^^ (if c then q ^^^ v else q) := by
  cases b <;> cases c
  case false.false => rfl
  case false.true => exact BitVec.xor_assoc ..
  case true.false =>
    show p ^^^ q ^^^ v = p ^^^ v ^^^ q
    ac_rfl
  case true.true =>
    calc p ^^^ q = p ^^^ q ^^^ (v ^^^ v) := by rw [BitVec.xor_self, BitVec.xor_zero]
      _ = p ^^^ v ^^^ (q ^^^ v) := by ac_rfl

/-- `xtime` by arithmetic: the doubled value modulo 256, reduced by 0x1B when bit 7 was set. -/
theorem xtime_eq (a : Byte) :
    xtime a = if 128 ≤ a.toNat then BitVec.ofNat 8 (2 * a.toNat) ^^^ 0x1B else BitVec.ofNat 8 (2 * a.toNat) := by
  have hshift : a <<< 1 = BitVec.ofNat 8 (2 * a.toNat) :=
    BitVec.eq_of_toNat_eq (by rw [BitVec.toNat_shiftLeft, BitVec.toNat_ofNat, Nat.shiftLeft_eq, pow_one, mul_comm])
  have hbit : a.getLsbD 7 = decide (128 ≤ a.toNat) := BitVec.msb_eq_decide a
  simp only [xtime, hshift, hbit, decide_eq_true_eq]

theorem xtime_xor (a b : Byte) : xtime (a ^^^ b) = xtime a ^^^ xtime b := by
  rw [xtime, BitVec.getLsbD_xor, BitVec.shiftLeft_xor_distrib, ite_xor_bits]
  rfl

theorem xtime_iterate_one : ∀ k : Fin 8, xtime^[k] 1 = BitVec.twoPow 8 k := by decide

/-! ### The loop of `gf_mul` (R103): its closed form, and its linearity in each operand -/

theorem gfMulLoop_eq_foldl (a b : Byte) (n k : Nat) (p : Byte) :
    gfMulLoop b n k p (xtime^[k] a) =
      (((List.range' k n).filter fun j => b.getLsbD j).map fun j => xtime^[j] a).foldl (· ^^^ ·) p := by
  induction n generalizing k p with
  | zero => rfl
  | succ n ih =>
    rw [gfMulLoop, ← Function.iterate_succ_apply' xtime, ih, List.range'_succ, List.filter_cons]
    cases b.getLsbD k <;> rfl

theorem gfMulLoop_xor_left (b : Byte) (n k : Nat) (p q t u : Byte) :
    gfMulLoop b n k (p ^^^ q) (t ^^^ u) = gfMulLoop b n k p t ^^^ gfMulLoop b n k q u := by
  induction n generalizing k p q t u with
  | zero => rfl
  | succ n ih =>
    rw [gfMulLoop, gfMulLoop, gfMulLoop, xtime_xor, ← ih]
    congr 1
    split
    · ac_rfl
    · rfl

theorem gfMulLoop_xor_right (b c : Byte) (n k : Nat) (p q t : Byte) :
    gfMulLoop (b ^^^ c) n k (p ^^^ q) t = gfMulLoop b n k p t ^^^ gfMulLoop c n k q t := by
  induction n generalizing k p q t with
  | zero => rfl
  | succ n ih =>
    rw [gfMulLoop, gfMulLoop, gfMulLoop, ← ih, BitVec.getLsbD_xor, ite_xor_bits]

/-- R103's second form: the XOR of `xtime^k(a)` over the set bits k of `b`. -/
theorem gfMul_eq_foldl (a b : Byte) :
    gfMul a b = (((List.range 8).filter fun k => b.getLsbD k).map fun k => xtime^[k] a).foldl (· ^^^ ·) 0 := by
  rw [List.range_eq_range']
  exact gfMulLoop_eq_foldl a b 8 0 0

theorem gfMul_xor_left (a b c : Byte) : gfMul (a ^^^ b) c = gfMul a c ^^^ gfMul b c :=
  gfMulLoop_xor_left c 8 0 0 0 a b

theorem gfMul_xor_right (a b c : Byte) : gfMul a (b ^^^ c) = gfMul a b ^^^ gfMul a c :=
  gfMulLoop_xor_right b c 8 0 0 0 a

@[simp] theorem gfMul_zero (a : Byte) : gfMul a 0 = 0 := by
  rw [gfMul_eq_foldl]
  rfl

/-- A power of x as the second operand: that many `xtime` steps. -/
theorem gfMul_twoPow (a : Byte) (k : Fin 8) : gfMul a (BitVec.twoPow 8 k) = xtime^[k] a := by
  have hbits : ∀ k : Fin 8, (List.range 8).filter (fun j => (BitVec.twoPow 8 k).getLsbD j) = [k.val] := by decide
  rw [gfMul_eq_foldl, hbits]
  exact BitVec.zero_xor

@[simp] theorem gfMul_one (a : Byte) : gfMul a 1 = a := gfMul_twoPow a 0

theorem gfMul_two (a : Byte) : gfMul a 2 = xtime a := gfMul_twoPow a 1

/-! ### Commutativity: both orders are linear in each operand and agree on the powers of x -/

/-- What holds of 0 and of the eight powers of x, and of the sum of any two bytes it holds of, holds of every byte. -/
theorem byte_xor_induction {P : Byte → Prop} (zero : P 0) (twoPow : ∀ k : Fin 8, P (BitVec.twoPow 8 k))
    (xor : ∀ a b, P a → P b → P (a ^^^ b)) (a : Byte) : P a := by
  have hbits : ∀ a : Byte,
      ((List.finRange 8).filter fun k => a.getLsbD k.val).foldl (fun p k => p ^^^ BitVec.twoPow 8 k.val) 0 = a := by
    decide
  exact hbits a ▸ List.foldlRecOn _ _ zero fun p hp k _ => xor p _ hp (twoPow k)

@[simp] theorem zero_gfMul (a : Byte) : gfMul 0 a = 0 := by
  simpa using gfMul_xor_left 0 0 a

theorem gfMul_twoPow_comm (j k : Fin 8) :
    gfMul (BitVec.twoPow 8 j) (BitVec.twoPow 8 k) = gfMul (BitVec.twoPow 8 k) (BitVec.twoPow 8 j) := by
  rw [gfMul_twoPow, gfMul_twoPow, ← xtime_iterate_one, ← xtime_iterate_one]
  exact Function.Commute.iterate_iterate_self xtime k j 1

theorem gfMul_comm (a b : Byte) : gfMul a b = gfMul b a := by
  induction a using byte_xor_induction with
  | zero => rw [zero_gfMul, gfMul_zero]
  | xor a a' ih ih' => rw [gfMul_xor_left, gfMul_xor_right, ih, ih']
  | twoPow j =>
    induction b using byte_xor_induction with
    | zero => rw [zero_gfMul, gfMul_zero]
    | xor b b' ih ih' => rw [gfMul_xor_left, gfMul_xor_right, ih, ih']
    | twoPow k => exact gfMul_twoPow_comm j k

/-! ### The statements -/

/-- Settles O12: field addition is XOR, in which `gf_mul` is linear. -/
theorem gfMulLaws : Obligations.GfMulLaws :=
  fun a b c => ⟨gfMul_comm a b, gfMul_xor_right a b c, gfMul_one a, gfMul_zero a⟩

/-- Settles O15: the command is a `byteResult`, and its word the only legal one with OPC 0x01. -/
theorem gfAddCommand : Obligations.GfAddCommand := by
  refine ⟨rfl, fun s => ?result, fun s hw => ?step, fun s => engineStep_otherWord (i := .gfAdd) (by decide), ?corners,
    rfl⟩
  case result => exact byteResult_eq (s.opa ^^^ s.opb) s
  case step =>
    have hd : decode s.cmdl = .ok .gfAdd := hw ▸ rfl
    exact engineStep_of_decode hd (byteResult_eq (s.opa ^^^ s.opb) s)
  case corners => exact fun a => ⟨BitVec.xor_self, BitVec.xor_zero⟩

/-- Settles O16: the command is a `byteResult` of `xtime`, read by arithmetic. -/
theorem gfXtimeCommand : Obligations.GfXtimeCommand := by
  refine ⟨rfl, fun s => ?result, fun s => engineStep_otherWord (i := .gfXtime) (by decide), by decide⟩
  case result =>
    rw [← xtime_eq]
    exact byteResult_eq (xtime s.opa) s

/-- Settles O17: the command is a `byteResult` of `gf_mul`, read in its second form. -/
theorem gfMulCommand : Obligations.GfMulCommand := by
  refine ⟨rfl, fun s => ?result, fun s => engineStep_otherWord (i := .gfMul) (by decide), fun a => ?corners,
    by decide⟩
  case result =>
    rw [← gfMul_eq_foldl]
    exact byteResult_eq (gfMul s.opa s.opb) s
  case corners => exact ⟨gfMul_zero a, zero_gfMul a, gfMul_one a, gfMul_two a⟩

end Machine

end Sys2Proof
end

section
/-! PROOF. The S-box, the inverse S-box and their two commands (41_sbox.md R123 to R125). -/

namespace Sys2Proof.Machine

/-! ### The two tables (R123, R124) -/

@[simp] theorem invSubByte_subByte : ∀ b : Byte, invSubByte (subByte b) = b := by decide

/-- Of the finitely many bytes a left inverse is a right inverse too, so one reading of the tables gives both round trips. -/
@[simp] theorem subByte_invSubByte (b : Byte) : subByte (invSubByte b) = b := by
  have hleft : Function.LeftInverse invSubByte subByte := invSubByte_subByte
  have hsurj : Function.Surjective subByte := Finite.surjective_of_injective hleft.injective
  exact hleft.rightInverse_of_surjective hsurj b

theorem subByte_ne_self : ∀ b : Byte, subByte b ≠ b := by decide

theorem subByte_ne_complement : ∀ b : Byte, subByte b ≠ b ^^^ 0xFF := by decide

/-! ### The two commands' results and frames -/

theorem exec_sbox (s : State) : exec .sbox s = .next { s with res := subByte s.opa, err := 0 } :=
  byteResult_eq (subByte s.opa) s

theorem exec_invSbox (s : State) : exec .invSbox s = .next { s with res := invSubByte s.opa, err := 0 } :=
  byteResult_eq (invSubByte s.opa) s

/-! ### The statements -/

/-- Settles O18: each table is the other's inverse, by reading one and counting the bytes. -/
theorem sboxTablesUndoEachOther : Obligations.SboxTablesUndoEachOther :=
  fun b => ⟨invSubByte_subByte b, subByte_invSubByte b⟩

/-- Settles O20: the command is a `byteResult`, its word the only legal one with OPC 0x04, and the table has no fixed and no
opposite fixed point. -/
theorem sboxCommand : Obligations.SboxCommand :=
  ⟨rfl, exec_sbox, fun _ => engineStep_otherWord (i := .sbox) (by decide),
    fun b => ⟨subByte_ne_self b, subByte_ne_complement b⟩, rfl, rfl, rfl⟩

/-- Settles O21: the command is a `byteResult`, its word the only legal one with OPC 0x05, and after SBOX it reads the table
back. -/
theorem invSboxCommand : Obligations.InvSboxCommand := by
  refine ⟨rfl, exec_invSbox, fun s => engineStep_otherWord (i := .invSbox) (by decide), fun s => ?roundTrip, rfl, rfl, rfl⟩
  case roundTrip => exact ⟨_, _, exec_sbox s, exec_invSbox _, invSubByte_subByte s.opa⟩

end Sys2Proof.Machine
end

section
/-! PROOF. The state transforms and six of their commands (42_transforms.md R149 to R155). -/

namespace Sys2Proof.Machine

/-! ### Byte substitution (R149) -/

/-- One map on every byte of the state. -/
def mapBytes (f : Byte → Byte) (m : StateMatrix) : StateMatrix := matrixOf fun r c => f (entry m r c)

@[simp] theorem entry_mapBytes (f : Byte → Byte) (m : StateMatrix) (r c : Fin 4) :
    entry (mapBytes f m) r c = f (entry m r c) := entry_matrixOf _ r c

theorem subBytes_eq_mapBytes (m : StateMatrix) : subBytes m = mapBytes subByte m := rfl

theorem invSubBytes_eq_mapBytes (m : StateMatrix) : invSubBytes m = mapBytes invSubByte m := rfl

/-- Equal bytes stay equal. -/
theorem mapBytes_load_replicate (f : Byte → Byte) (b : Byte) :
    mapBytes f (load (Vector.replicate 16 b)) = load (Vector.replicate 16 (f b)) :=
  StateMatrix_ext fun r c => by simp only [entry_mapBytes, entry_load, Vector.getElem_replicate]

theorem invSubBytes_subBytes (m : StateMatrix) : invSubBytes (subBytes m) = m :=
  StateMatrix_ext fun r c => by rw [entry_invSubBytes, entry_subBytes, invSubByte_subByte]

/-! ### Row shifts, which move whole bytes (R149) -/

theorem invShiftRows_shiftRows (m : StateMatrix) : invShiftRows (shiftRows m) = m :=
  StateMatrix_ext fun r c => by rw [entry_invShiftRows, entry_shiftRows, sub_add_cancel]

theorem shiftRows_invShiftRows (m : StateMatrix) : shiftRows (invShiftRows m) = m :=
  StateMatrix_ext fun r c => by rw [entry_shiftRows, entry_invShiftRows, add_sub_cancel_right]

/-- Three places to the left are one place to the right. -/
theorem shiftRows_three (m : StateMatrix) : shiftRows (shiftRows (shiftRows m)) = invShiftRows m := by
  have hcol : ∀ r c : Fin 4, c + r + r + r = c - r := by decide
  refine StateMatrix_ext fun r c => ?_
  simp only [entry_shiftRows, entry_invShiftRows, hcol]

theorem shiftRows_four (m : StateMatrix) : shiftRows (shiftRows (shiftRows (shiftRows m))) = m := by
  rw [shiftRows_three, invShiftRows_shiftRows]

theorem shiftRows_of_constant_rows {m : StateMatrix} (h : ∀ r c d, entry m r c = entry m r d) : shiftRows m = m :=
  StateMatrix_ext fun r c => (entry_shiftRows m r c).trans (h r (c + r) c)

theorem mapBytes_shiftRows (f : Byte → Byte) (m : StateMatrix) :
    mapBytes f (shiftRows m) = shiftRows (mapBytes f m) :=
  StateMatrix_ext fun r c => by simp only [entry_mapBytes, entry_shiftRows]

theorem mapBytes_invShiftRows (f : Byte → Byte) (m : StateMatrix) :
    mapBytes f (invShiftRows m) = invShiftRows (mapBytes f m) :=
  StateMatrix_ext fun r c => by simp only [entry_mapBytes, entry_invShiftRows]

/-! ### AddRoundKey (R149) -/

theorem addRoundKey_addRoundKey (m : StateMatrix) (w : Schedule) (rnd : Fin 11) :
    addRoundKey (addRoundKey m w rnd) w rnd = m :=
  StateMatrix_ext fun r c => by
    rw [entry_addRoundKey, entry_addRoundKey, BitVec.xor_assoc, BitVec.xor_self, BitVec.xor_zero]

/-! ### `gf_mul` by 1, 2 and 3, and its associativity (R105) -/

theorem one_gfMul (a : Byte) : gfMul 1 a = a := by rw [gfMul_comm, gfMul_one]

theorem two_gfMul (a : Byte) : gfMul 2 a = xtime a := by rw [gfMul_comm, gfMul_two]

theorem three_gfMul (a : Byte) : gfMul 3 a = xtime a ^^^ a :=
  calc gfMul 3 a = gfMul 2 a ^^^ gfMul 1 a := gfMul_xor_left 2 1 a
    _ = xtime a ^^^ a := by rw [two_gfMul, one_gfMul]

theorem gfMulLoop_xtime (b : Byte) (n k : Nat) (p t : Byte) :
    gfMulLoop b n k (xtime p) (xtime t) = xtime (gfMulLoop b n k p t) := by
  induction n generalizing k p t with
  | zero => rfl
  | succ n ih => rw [gfMulLoop, gfMulLoop, ← ih, apply_ite xtime, xtime_xor]

theorem gfMul_xtime_left (a b : Byte) : gfMul (xtime a) b = xtime (gfMul a b) :=
  gfMulLoop_xtime b 8 0 0 a

theorem gfMul_xtime_iterate_left (k : Nat) (a b : Byte) : gfMul (xtime^[k] a) b = xtime^[k] (gfMul a b) :=
  (Function.Semiconj.iterate_right (f := fun a => gfMul a b) (fun a => gfMul_xtime_left a b) k) a

/-- Both sides are linear in `a`, and for a power of x both are that many `xtime` steps from `gf_mul(b, c)`. -/
theorem gfMul_assoc (a b c : Byte) : gfMul (gfMul a b) c = gfMul a (gfMul b c) := by
  induction a using byte_xor_induction with
  | zero => rw [zero_gfMul, zero_gfMul, zero_gfMul]
  | xor a a' ih ih' => rw [gfMul_xor_left, gfMul_xor_left, gfMul_xor_left, ih, ih']
  | twoPow k =>
    rw [gfMul_comm _ b, gfMul_comm _ (gfMul b c), gfMul_twoPow, gfMul_twoPow, gfMul_xtime_iterate_left]

/-! ### A matrix times a column (R145, R146) -/

/-- A matrix, held by rows, times a column. -/
def timesColumn (m : Quad (Quad Byte)) (col : Column) : Column := Quad.ofFn fun r => rowTimesColumn (m.get r) col

/-- A row times a matrix. -/
def rowTimesMatrix (row : Quad Byte) (m : Quad (Quad Byte)) : Quad Byte :=
  Quad.ofFn fun k => rowTimesColumn row (Quad.ofFn fun j => (m.get j).get k)

/-- Row `r` of the identity matrix. -/
def unitRow (r : Fin 4) : Quad Byte := Quad.ofFn fun k => if k = r then 1 else 0

theorem get_mixColumns_eq_timesColumn (m : StateMatrix) (c : Fin 4) :
    (mixColumns m).get c = timesColumn mixMatrix (m.get c) := get_mixColumns m c

theorem get_invMixColumns_eq_timesColumn (m : StateMatrix) (c : Fin 4) :
    (invMixColumns m).get c = timesColumn invMixMatrix (m.get c) := get_invMixColumns m c

theorem rowTimesColumn_timesColumn (row : Quad Byte) (m : Quad (Quad Byte)) (col : Column) :
    rowTimesColumn row (timesColumn m col) = rowTimesColumn (rowTimesMatrix row m) col := by
  simp only [rowTimesColumn, timesColumn, rowTimesMatrix, gfAdd, Quad.ofFn, Quad.get, gfMul_xor_left, gfMul_xor_right,
    gfMul_assoc]
  ac_rfl

theorem ite_one_zero_gfMul (p : Prop) [Decidable p] (a : Byte) : gfMul (if p then 1 else 0) a = if p then a else 0 := by
  split
  · exact one_gfMul a
  · exact zero_gfMul a

theorem rowTimesColumn_unitRow (r : Fin 4) (col : Column) : rowTimesColumn (unitRow r) col = col.get r := by
  simp only [rowTimesColumn, unitRow, Quad.ofFn, ite_one_zero_gfMul, gfAdd]
  fin_cases r <;> simp [Quad.get]

/-- Minv times M is the identity matrix. -/
theorem invMixMatrix_times_mixMatrix : ∀ r, rowTimesMatrix (invMixMatrix.get r) mixMatrix = unitRow r := by decide

theorem timesColumn_invMixMatrix_mixMatrix (col : Column) : timesColumn invMixMatrix (timesColumn mixMatrix col) = col :=
  Quad.ext_get fun r => by
    rw [timesColumn, Quad.get_ofFn, rowTimesColumn_timesColumn, invMixMatrix_times_mixMatrix, rowTimesColumn_unitRow]

theorem invMixColumns_mixColumns (m : StateMatrix) : invMixColumns (mixColumns m) = m :=
  Quad.ext_get fun c => by
    rw [get_invMixColumns_eq_timesColumn, get_mixColumns_eq_timesColumn, timesColumn_invMixMatrix_mixMatrix]

/-- The sum of a row's coefficients. -/
def rowSum (row : Quad Byte) : Byte := row.a0 ^^^ row.a1 ^^^ row.a2 ^^^ row.a3

theorem rowTimesColumn_equal (row : Quad Byte) (a : Byte) : rowTimesColumn row ⟨a, a, a, a⟩ = gfMul (rowSum row) a := by
  simp only [rowTimesColumn, gfAdd, rowSum, gfMul_xor_left]

/-- A column of four equal bytes stays under a matrix whose rows each sum to 1. -/
theorem timesColumn_equal {m : Quad (Quad Byte)} (hsum : ∀ r, rowSum (m.get r) = 1) (a : Byte) :
    timesColumn m ⟨a, a, a, a⟩ = ⟨a, a, a, a⟩ := by
  simp only [timesColumn, rowTimesColumn_equal, hsum, one_gfMul]
  rfl

/-- R145's form for one column. -/
theorem timesColumn_mixMatrix (a0 a1 a2 a3 : Byte) :
    timesColumn mixMatrix ⟨a0, a1, a2, a3⟩ =
      ⟨xtime a0 ^^^ (xtime a1 ^^^ a1) ^^^ a2 ^^^ a3, a0 ^^^ xtime a1 ^^^ (xtime a2 ^^^ a2) ^^^ a3,
       a0 ^^^ a1 ^^^ xtime a2 ^^^ (xtime a3 ^^^ a3), (xtime a0 ^^^ a0) ^^^ a1 ^^^ a2 ^^^ xtime a3⟩ := by
  simp only [timesColumn, Quad.ofFn, Quad.get, mixMatrix, rowTimesColumn, gfAdd, one_gfMul, two_gfMul, three_gfMul]

/-! ### The commands' results and frames -/

theorem exec_subBytes (s : State) : exec .subBytes s = .next { s with state := subBytes s.state, err := 0 } :=
  stateResult_eq (subBytes s.state) s

theorem exec_invSubBytes (s : State) : exec .invSubBytes s = .next { s with state := invSubBytes s.state, err := 0 } :=
  stateResult_eq (invSubBytes s.state) s

theorem exec_shiftRows (s : State) : exec .shiftRows s = .next { s with state := shiftRows s.state, err := 0 } :=
  stateResult_eq (shiftRows s.state) s

theorem exec_invShiftRows (s : State) : exec .invShiftRows s = .next { s with state := invShiftRows s.state, err := 0 } :=
  stateResult_eq (invShiftRows s.state) s

theorem exec_mixColumns (s : State) : exec .mixColumns s = .next { s with state := mixColumns s.state, err := 0 } :=
  stateResult_eq (mixColumns s.state) s

theorem exec_invMixColumns (s : State) :
    exec .invMixColumns s = .next { s with state := invMixColumns s.state, err := 0 } :=
  stateResult_eq (invMixColumns s.state) s

/-! ### The statements -/

/-- Settles O23: a map on bytes commutes with moving them, MixColumns is undone because Minv times M is the identity, and the
rest holds entry by entry. -/
theorem transformsUndoEachOtherAndCommute : Obligations.TransformsUndoEachOtherAndCommute :=
  fun m w rnd => ⟨invShiftRows_shiftRows m, shiftRows_invShiftRows m, invMixColumns_mixColumns m, invSubBytes_subBytes m,
    addRoundKey_addRoundKey m w rnd, mapBytes_shiftRows subByte m, mapBytes_invShiftRows subByte m,
    mapBytes_shiftRows invSubByte m, mapBytes_invShiftRows invSubByte m⟩

/-- Settles O24: the command is a `stateResult`, and its word the only legal one with OPC 0x10. -/
theorem subBytesCommand : Obligations.SubBytesCommand := by
  refine ⟨rfl, fun s => ⟨_, exec_subBytes s, rfl, entry_subBytes s.state⟩,
    fun s => engineStep_otherWord (i := .subBytes) (by decide), ?zeros, by decide⟩
  case zeros =>
    rw [subBytes_eq_mapBytes, mapBytes_load_replicate]
    rfl

/-- Settles O25: the command is a `stateResult`, its word the only legal one with OPC 0x11, and its table undoes the
S-box. -/
theorem invSubBytesCommand : Obligations.InvSubBytesCommand := by
  refine ⟨rfl, fun s => ⟨_, exec_invSubBytes s, rfl, entry_invSubBytes s.state⟩,
    fun s => engineStep_otherWord (i := .invSubBytes) (by decide), fun s => ?roundTrip, ?equalBytes, by decide⟩
  case roundTrip => simp only [execAll, exec_subBytes, exec_invSubBytes, invSubBytes_subBytes]
  case equalBytes =>
    rw [invSubBytes_eq_mapBytes, mapBytes_load_replicate]
    rfl

/-- Settles O26: the command is a `stateResult`, its word the only legal one with OPC 0x12, and a fourth shift undoes three. -/
theorem shiftRowsCommand : Obligations.ShiftRowsCommand := by
  refine ⟨rfl, fun s => ⟨_, exec_shiftRows s, rfl, entry_shiftRows s.state⟩,
    fun s => engineStep_otherWord (i := .shiftRows) (by decide), fun m c => ?rowZero,
    fun m => shiftRows_of_constant_rows, fun s => ?four, by decide⟩
  case rowZero => rw [entry_shiftRows, add_zero]
  case four => simp only [execAll, exec_shiftRows, shiftRows_four]

/-- Settles O27: the command is a `stateResult`, its word the only legal one with OPC 0x13, and its shift is both the inverse
of SHIFT_ROWS and three of it. -/
theorem invShiftRowsCommand : Obligations.InvShiftRowsCommand := by
  refine ⟨rfl, fun s => ⟨_, exec_invShiftRows s, rfl, entry_invShiftRows s.state⟩,
    fun s => engineStep_otherWord (i := .invShiftRows) (by decide), fun m c => ?rowZero,
    fun s => ⟨?roundTrip, ?three⟩, by decide⟩
  case rowZero => rw [entry_invShiftRows, sub_zero]
  case roundTrip => simp only [execAll, exec_shiftRows, exec_invShiftRows, invShiftRows_shiftRows]
  case three => simp only [execAll, exec_shiftRows, exec_invShiftRows, shiftRows_three]

/-- Settles O28: the command is a `stateResult`, its word the only legal one with OPC 0x14, and M's coefficients are 1, 2 and 3,
which sum to 1 in each row. -/
theorem mixColumnsCommand : Obligations.MixColumnsCommand := by
  refine ⟨rfl, fun s => ⟨_, exec_mixColumns s, rfl, fun c a0 a1 a2 a3 h => ?product⟩,
    fun s => engineStep_otherWord (i := .mixColumns) (by decide), fun m c a h => ?equalBytes, fun m c h => ?column,
    by decide⟩
  all_goals rw [get_mixColumns_eq_timesColumn, h]
  case product => exact timesColumn_mixMatrix a0 a1 a2 a3
  case equalBytes => exact timesColumn_equal (by decide) a
  case column => rfl

/-- Settles O29: the command is a `stateResult`, its word the only legal one with OPC 0x15, and Minv's rows, which sum to 1, are
those of the inverse of M. -/
theorem invMixColumnsCommand : Obligations.InvMixColumnsCommand := by
  refine ⟨rfl, fun s => ⟨_, exec_invMixColumns s, rfl, fun c a0 a1 a2 a3 h => ?product⟩,
    fun s => engineStep_otherWord (i := .invMixColumns) (by decide), fun m c a h => ?equalBytes, fun s => ?roundTrip,
    fun m c h => ?column, by decide⟩
  case roundTrip => simp only [execAll, exec_mixColumns, exec_invMixColumns, invMixColumns_mixColumns]
  all_goals rw [get_invMixColumns_eq_timesColumn, h]
  case product => rfl
  case equalBytes => exact timesColumn_equal (by decide) a
  case column => rfl

end Sys2Proof.Machine
end

section
/-! PROOF. The key schedule and EXPAND_KEY (43_key_schedule.md R171 to R174, R177). -/

namespace Sys2Proof.Machine

/-! ### RotWord and SubWord, byte by byte (R171, R172) -/

/-- The first three bytes come from the word's low 24 bits, the last from its top byte. -/
theorem byteOf_rotWord (w : Word) : ∀ k : Fin 4, byteOf k (rotWord w) = byteOf (k + 1) w
  | 0 | 1 | 2 => (BitVec.extractLsb'_append_eq_of_le (by decide)).trans (BitVec.extractLsb'_extractLsb'_of_le (by decide))
  | 3 => BitVec.extractLsb'_append_eq_right

theorem byteOf_subWord (w : Word) (k : Fin 4) : byteOf k (subWord w) = subByte (byteOf k w) := by
  rw [subWord, byteOf_wordOf]
  fin_cases k <;> rfl

/-- The order of rotation and substitution does not change the result (R174). -/
theorem subWord_rotWord (w : Word) : subWord (rotWord w) = rotWord (subWord w) :=
  Word_ext fun k => by rw [byteOf_subWord, byteOf_rotWord, byteOf_rotWord, byteOf_subWord]

/-! ### The words of the schedule (R170, R174) -/

theorem getElem_expandKey_first (k : Block) (j : Fin 4) : (expandKey k)[j.val] = blockWord k j := by
  fin_cases j <;> rfl

/-- `{b, 0x00, 0x00, 0x00}` is the byte shifted to bits 31:24. -/
theorem append_zeroBytes (b : Byte) : b ++ 0#24 = b.zeroExtend 32 <<< 24 := by
  rw [BitVec.append_def, BitVec.shiftLeftZeroExtend_eq]
  exact BitVec.or_zero

theorem scheduleTemp_eq (i : Nat) (prev : Word) :
    scheduleTemp i prev =
      if i % 4 = 0 then subWord (rotWord prev) ^^^ (rcon (i / 4)).zeroExtend 32 <<< 24 else prev := by
  rw [scheduleTemp, append_zeroBytes]

/-- Four words and the `n` after them: the words from `i - 4` on of a schedule. -/
def wordsFrom (n i : Nat) (w4 w3 w2 w1 : Word) : List Word := [w4, w3, w2, w1] ++ expandWords n i w4 w3 w2 w1

theorem wordsFrom_length (n i : Nat) (w4 w3 w2 w1 : Word) : (wordsFrom n i w4 w3 w2 w1).length = n + 4 := by
  simp [wordsFrom, expandWords_length]

theorem wordsFrom_succ (n i : Nat) (w4 w3 w2 w1 : Word) :
    wordsFrom (n + 1) i w4 w3 w2 w1 = w4 :: wordsFrom n (i + 1) w3 w2 w1 (w4 ^^^ scheduleTemp i w1) := rfl

theorem getElem_expandKey_eq_wordsFrom (k : Block) (i : Nat) (h : i < 44) :
    (expandKey k)[i] = (wordsFrom 40 4 (blockWord k 0) (blockWord k 1) (blockWord k 2) (blockWord k 3))[i]'(by
      rwa [wordsFrom_length]) := rfl

/-- R174's recurrence at any distance `j` from the four given words: the list's tail is such a list again, one word on. -/
theorem getElem_wordsFrom (n i j : Nat) (w4 w3 w2 w1 : Word) (hj : j + 4 < (wordsFrom n i w4 w3 w2 w1).length) :
    (wordsFrom n i w4 w3 w2 w1)[j + 4] =
      (wordsFrom n i w4 w3 w2 w1)[j] ^^^ scheduleTemp (j + i) (wordsFrom n i w4 w3 w2 w1)[j + 3] := by
  induction n generalizing i j w4 w3 w2 w1 with
  | zero =>
    rw [wordsFrom_length] at hj
    omega
  | succ n ih =>
    cases j with
    | zero =>
      rw [Nat.zero_add i]
      rfl
    | succ j =>
      simp only [wordsFrom_succ, List.getElem_cons_succ, Nat.succ_add_eq_add_succ j i]
      exact ih (i + 1) j w3 w2 w1 (w4 ^^^ scheduleTemp i w1) (Nat.lt_of_succ_lt_succ hj)

/-- R174: `w[i] = w[i-4] ^ temp`. -/
theorem getElem_expandKey_of_four_le (k : Block) (i : Nat) (hi : 4 ≤ i) (h : i < 44) :
    (expandKey k)[i] = (expandKey k)[i - 4] ^^^ scheduleTemp i (expandKey k)[i - 1] := by
  obtain ⟨j, rfl⟩ := Nat.exists_eq_add_of_le' hi
  simp only [getElem_expandKey_eq_wordsFrom]
  exact getElem_wordsFrom 40 4 j _ _ _ _ (by rwa [wordsFrom_length])

/-! ### The command's result and frame (R177) -/

theorem exec_expandKey (s : State) :
    exec .expandKey s = .next { s with rk := expandKey (keyBytes s.key), ksv := true, err := 0 } :=
  finish_eq ((s.setRk (expandKey (keyBytes s.key))).setKsv true)

theorem getElem_keyBytes_word (key : Quad Word) (j i : Fin 4) :
    (keyBytes key)[4 * j.val + i.val] = byteOf i (key.get j) := by
  rw [← byteOf_blockWord, blockWord_keyBytes]

/-- RK[0..3] are KEY0..3 (R170). -/
theorem getElem_expandKey_keyBytes (key : Quad Word) (j : Fin 4) : (expandKey (keyBytes key))[j.val] = key.get j := by
  rw [getElem_expandKey_first, blockWord_keyBytes]

/-! ### The statements -/

/-- Settles O31: each byte of either result is one byte of the word. -/
theorem rotWordAndSubWordByBytes : Obligations.RotWordAndSubWordByBytes :=
  fun w k => ⟨byteOf_rotWord w k, byteOf_subWord w k⟩

/-- Settles O32: `rcon (j + 1)` is `j` doublings of 1. -/
theorem rconTable : Obligations.RconTable := by
  refine ⟨rfl, fun j hj _ => ?doubling, by decide⟩
  case doubling =>
    obtain ⟨i, rfl⟩ := Nat.exists_eq_add_of_le' hj
    rfl

/-- Settles O33: the list the model builds word by word obeys the recurrence at every index. -/
theorem expandKeyRecurrence : Obligations.ExpandKeyRecurrence := by
  refine fun k => ⟨fun j i => ?first, fun i hi h => ?next, subWord_rotWord⟩
  case first => rw [getElem_expandKey_first, byteOf_blockWord]
  case next => rw [getElem_expandKey_of_four_le k i hi h, scheduleTemp_eq]

/-- Settles O35: the command keeps KEY, from which alone it computes RK, and its word is the only legal one with OPC 0x20. The
two examples are the schedule evaluated on their keys. -/
theorem expandKeyCommand : Obligations.ExpandKeyCommand := by
  refine ⟨rfl, fun s => ⟨_, exec_expandKey s, rfl, ?fromKey⟩,
    fun s => engineStep_otherWord (i := .expandKey) (by decide), fun s => ?again,
    fun s hkey => ⟨_, exec_expandKey s, ?zeroKey⟩, fun s hkey => ⟨_, exec_expandKey s, ?exampleKey⟩⟩
  case fromKey => exact ⟨keyBytes s.key, getElem_keyBytes_word s.key, rfl, getElem_expandKey_keyBytes s.key⟩
  case again => simp only [execAll, exec_expandKey]
  all_goals rw [hkey]
  case zeroKey => exact ⟨rfl, rfl, rfl, rfl⟩
  case exampleKey =>
    refine ⟨rfl, rfl, rfl, rfl, ?rotated, rfl, rfl, rfl, rfl, rfl, rfl⟩
    show rotWord 0x09cf4f3c = 0xcf4f3c09
    decide

end Sys2Proof.Machine
end

section
/-! PROOF. The block functions and the commands ENCRYPT, DECRYPT and NOP (44_cipher.md R190 to R196). -/

namespace Sys2Proof.Machine

/-! ### Decryption undoes encryption (R193), by R149 applied in reverse order -/

/-- Steps with a left inverse are undone by their inverses in reverse order. -/
theorem foldl_reverse_foldl {α β : Type} {f g : β → α → β} (h : ∀ b a, g (f b a) a = b) (l : List α) (b : β) :
    l.reverse.foldl g (l.foldl f b) = b := by
  induction l generalizing b with
  | nil => rfl
  | cons a l ih => rw [List.foldl_cons, List.reverse_cons, List.foldl_append, ih, List.foldl_cons, List.foldl_nil, h]

theorem decryptRound_encryptRound (w : Schedule) (m : StateMatrix) (rnd : Fin 11) :
    decryptRound w (encryptRound w m rnd) rnd = m := by
  rw [decryptRound, encryptRound, addRoundKey_addRoundKey, invMixColumns_mixColumns, invShiftRows_shiftRows,
    invSubBytes_subBytes]

theorem decryptState_encryptState (m : StateMatrix) (w : Schedule) : decryptState (encryptState m w) w = m := by
  have hrounds : ([9, 8, 7, 6, 5, 4, 3, 2, 1] : List (Fin 11)) = [1, 2, 3, 4, 5, 6, 7, 8, 9].reverse := rfl
  simp only [decryptState, encryptState]
  rw [addRoundKey_addRoundKey, invShiftRows_shiftRows, invSubBytes_subBytes, hrounds,
    foldl_reverse_foldl (decryptRound_encryptRound w), addRoundKey_addRoundKey]

/-- There are finitely many state matrices, so the left inverse is a right inverse too: for a fixed schedule both are
permutations, inverse to each other (R195). -/
theorem encryptState_decryptState (m : StateMatrix) (w : Schedule) : encryptState (decryptState m w) w = m := by
  have hfinite : Finite StateMatrix :=
    Finite.of_injective entry fun _ _ h => StateMatrix_ext fun r c => congrFun (congrFun h r) c
  have hleft : Function.LeftInverse (decryptState · w) (encryptState · w) := fun m => decryptState_encryptState m w
  have hsurj : Function.Surjective (encryptState · w) := Finite.surjective_of_injective hleft.injective
  exact hleft.rightInverse_of_surjective hsurj m

theorem decryptBlock_encryptBlock (b : Block) (w : Schedule) : decryptBlock (encryptBlock b w) w = b := by
  rw [decryptBlock, encryptBlock, load_store, decryptState_encryptState, store_load]

/-! ### The states between the rounds (R190, R191) -/

/-- Rounds 1 to 9, each taken from the state before it. -/
theorem foldl_rounds_eq_induction (f : StateMatrix → Fin 11 → StateMatrix) (m : StateMatrix) :
    [1, 2, 3, 4, 5, 6, 7, 8, 9].foldl f m =
      Fin.induction (motive := fun _ : Fin 10 => StateMatrix) m (fun rnd t => f t rnd.castSucc.succ) 9 := rfl

/-- Rounds 9 down to 1, each taken from the state before it. -/
theorem foldl_rounds_eq_reverseInduction (f : StateMatrix → Fin 11 → StateMatrix) (m : StateMatrix) :
    [9, 8, 7, 6, 5, 4, 3, 2, 1].foldl f m =
      Fin.reverseInduction (motive := fun _ : Fin 10 => StateMatrix) m (fun rnd t => f t rnd.castSucc.succ) 0 := rfl

/-- The state after AddRoundKey 0 and the rounds up to `k` of encryption. -/
def encryptedAfter (m : StateMatrix) (w : Schedule) : Fin 10 → StateMatrix :=
  Fin.induction (addRoundKey m w 0) fun rnd t => encryptRound w t rnd.castSucc.succ

theorem encryptedAfter_succ (m : StateMatrix) (w : Schedule) (rnd : Fin 9) :
    encryptedAfter m w rnd.succ = encryptRound w (encryptedAfter m w rnd.castSucc) rnd.castSucc.succ := rfl

theorem encryptState_eq (m : StateMatrix) (w : Schedule) :
    encryptState m w = addRoundKey (shiftRows (subBytes (encryptedAfter m w 9))) w 10 := by
  rw [encryptState, foldl_rounds_eq_induction]
  rfl

/-- The state from which decryption goes on with the rounds from `k` down. -/
def decryptedBefore (m : StateMatrix) (w : Schedule) : Fin 10 → StateMatrix :=
  Fin.reverseInduction (invSubBytes (invShiftRows (addRoundKey m w 10))) fun rnd t =>
    decryptRound w t rnd.castSucc.succ

theorem decryptedBefore_nine (m : StateMatrix) (w : Schedule) :
    decryptedBefore m w 9 = invSubBytes (invShiftRows (addRoundKey m w 10)) := Fin.reverseInduction_last

theorem decryptedBefore_castSucc (m : StateMatrix) (w : Schedule) (rnd : Fin 9) :
    decryptedBefore m w rnd.castSucc = decryptRound w (decryptedBefore m w rnd.succ) rnd.castSucc.succ :=
  Fin.reverseInduction_castSucc rnd

theorem decryptState_eq (m : StateMatrix) (w : Schedule) :
    decryptState m w = addRoundKey (decryptedBefore m w 0) w 0 := by
  rw [decryptState, foldl_rounds_eq_reverseInduction]
  rfl

/-! ### The commands' results and frames -/

theorem exec_encrypt_keyed {s : State} (h : s.ksv = true) :
    exec .encrypt s = .next { s with state := encryptState s.state s.rk, err := 0 } := by
  rw [exec_encrypt, withKeySchedule_valid h, stateResult_eq, encryptBlock, load_store, load_store]

theorem exec_decrypt_keyed {s : State} (h : s.ksv = true) :
    exec .decrypt s = .next { s with state := decryptState s.state s.rk, err := 0 } := by
  rw [exec_decrypt, withKeySchedule_valid h, stateResult_eq, decryptBlock, load_store, load_store]

theorem exec_encrypt_unkeyed {s : State} (h : s.ksv = false) : exec .encrypt s = .next { s with err := 2 } :=
  (exec_encrypt s).trans (withKeySchedule_missing h)

theorem exec_decrypt_unkeyed {s : State} (h : s.ksv = false) : exec .decrypt s = .next { s with err := 2 } :=
  (exec_decrypt s).trans (withKeySchedule_missing h)

theorem exec_nop (s : State) : exec .nop s = .next { s with err := 0 } := finish_eq s

/-! ### Known answers (R194, R195) -/

theorem encryptState_zero :
    encryptState (load (Vector.replicate 16 0)) (expandKey (Vector.replicate 16 0)) =
      load #v[0x66, 0xe9, 0x4b, 0xd4, 0xef, 0x8a, 0x2c, 0x3b, 0x88, 0x4c, 0xfa, 0x59, 0xca, 0x34, 0x2b, 0x2e] := by
  decide +kernel

theorem encryptState_example :
    encryptState
        (load #v[0x00, 0x11, 0x22, 0x33, 0x44, 0x55, 0x66, 0x77, 0x88, 0x99, 0xaa, 0xbb, 0xcc, 0xdd, 0xee, 0xff])
        (expandKey #v[0x00, 0x01, 0x02, 0x03, 0x04, 0x05, 0x06, 0x07, 0x08, 0x09, 0x0a, 0x0b, 0x0c, 0x0d, 0x0e, 0x0f]) =
      load #v[0x69, 0xc4, 0xe0, 0xd8, 0x6a, 0x7b, 0x04, 0x30, 0xd8, 0xcd, 0xb7, 0x80, 0x70, 0xb4, 0xc5, 0x5a] := by
  decide +kernel

/-- The example read backwards needs no second evaluation. -/
theorem decryptState_example :
    decryptState
        (load #v[0x69, 0xc4, 0xe0, 0xd8, 0x6a, 0x7b, 0x04, 0x30, 0xd8, 0xcd, 0xb7, 0x80, 0x70, 0xb4, 0xc5, 0x5a])
        (expandKey #v[0x00, 0x01, 0x02, 0x03, 0x04, 0x05, 0x06, 0x07, 0x08, 0x09, 0x0a, 0x0b, 0x0c, 0x0d, 0x0e, 0x0f]) =
      load #v[0x00, 0x11, 0x22, 0x33, 0x44, 0x55, 0x66, 0x77, 0x88, 0x99, 0xaa, 0xbb, 0xcc, 0xdd, 0xee, 0xff] := by
  rw [← encryptState_example, decryptState_encryptState]

/-! ### The statements -/

/-- Settles O36: the every-schedule form, of which an expanded key's is a case. -/
theorem decryptBlockUndoesEncryptBlock : Obligations.DecryptBlockUndoesEncryptBlock :=
  ⟨fun b k => decryptBlock_encryptBlock b (expandKey k), decryptBlock_encryptBlock⟩

/-- Settles O37: the command is a `stateResult` under the key-schedule check, its word the only legal one with OPC 0x30, and
the states between the rounds are `encryptedAfter`. -/
theorem encryptCommand : Obligations.EncryptCommand := by
  refine ⟨rfl, fun s h => ⟨_, exec_encrypt_keyed h, rfl, encryptedAfter s.state s.rk, rfl,
      encryptedAfter_succ s.state s.rk, encryptState_eq s.state s.rk⟩, fun s => exec_encrypt_unkeyed,
    fun s => engineStep_otherWord (i := .encrypt) (by decide), fun s h => ?roundTrip,
    fun s h hrk hst => ?zero, fun s h hrk hst => ?vector⟩
  case roundTrip => simp only [execAll, exec_encrypt_keyed, exec_decrypt_keyed, h, decryptState_encryptState]
  case zero => rw [exec_encrypt_keyed h, hrk, hst, encryptState_zero]
  case vector => rw [exec_encrypt_keyed h, hrk, hst, encryptState_example]

/-- Settles O38: the command is a `stateResult` under the key-schedule check, its word the only legal one with OPC 0x31, and
the states between the rounds are `decryptedBefore`. -/
theorem decryptCommand : Obligations.DecryptCommand := by
  refine ⟨rfl, fun s h => ⟨_, exec_decrypt_keyed h, rfl, decryptedBefore s.state s.rk,
      decryptedBefore_nine s.state s.rk, decryptedBefore_castSucc s.state s.rk, decryptState_eq s.state s.rk⟩,
    fun s => exec_decrypt_unkeyed, fun s => engineStep_otherWord (i := .decrypt) (by decide), fun s h => ?roundTrip,
    fun s h hrk hst => ?vector⟩
  case roundTrip => simp only [execAll, exec_encrypt_keyed, exec_decrypt_keyed, h, encryptState_decryptState]
  case vector => rw [exec_decrypt_keyed h, hrk, hst, decryptState_example]

/-- Settles O39: NOP is `finish` alone, and its word the only legal one with OPC 0x00. -/
theorem nopCommand : Obligations.NopCommand := by
  have hstep {s : State} (hw : s.cmdl = 0x00000000) : engineStep s = .next { s with err := 0, busy := false } :=
    engineStep_of_decode (i := .nop) (hw ▸ rfl) (exec_nop s)
  refine ⟨rfl, exec_nop, fun s => hstep, fun s => engineStep_otherWord (i := .nop) (by decide), fun s hb => ?cmdWrite,
    fun s hw hksv hovr _ => ⟨_, hstep hw, ?status⟩⟩
  case cmdWrite => rw [memWrite, unlessBusy_idle hb, State.setBusy_busy]
  case status =>
    simp only [statusWord, hksv, hovr]
    decide

end Sys2Proof.Machine
end

section
/-! PROOF. Command errors: their causes (60_exceptions.md R211) and the state after one (R212). -/

namespace Sys2Proof

/-! ### The causes of ILLEGAL -/

theorem not_roundFits_iff {opc : Byte} {rnd : BitVec 4} :
    ¬ RoundFits opc rnd ↔ (opc = 0x16 ∧ 10 < rnd.toNat) ∨ (opc ≠ 0x16 ∧ rnd ≠ 0) := by
  by_cases hopc : opc = 0x16
  · subst hopc
    simp only [roundFits_addRoundKey, not_le, true_and, ne_eq, not_true_eq_false, false_and, or_false]
  · simp only [roundFits_other hopc, hopc, ne_eq, not_false_eq_true, true_and, false_and, false_or]

/-- The words the decoder rejects, by fields: `exists_decode_eq_ok` negated. -/
theorem forall_decode_ne_ok {w : Word} :
    (∀ i, decode w ≠ .ok i) ↔
      rsvField w ≠ 0 ∨ (opcField w).toNat ∉ opcodes ∨
        (opcField w = 0x16 ∧ 10 < (rndField w).toNat) ∨ (opcField w ≠ 0x16 ∧ rndField w ≠ 0) := by
  rw [← not_exists, exists_decode_eq_ok, ← not_roundFits_iff]
  tauto

/-- The round index of a decoded command fits its row. -/
theorem roundFits_of_decode {w : Word} {i : Instr} (h : decode w = .ok i) : RoundFits i.opcode i.rnd := by
  obtain ⟨-, hi, hfit⟩ := decode_eq_ok.mp h
  rwa [opcode_of_ofOpcode hi, rnd_of_ofOpcode hi hfit]

theorem opcode_of_decode {w : Word} {i : Instr} (h : decode w = .ok i) : i.opcode = opcField w := by
  obtain ⟨-, hi, -⟩ := decode_eq_ok.mp h
  exact opcode_of_ofOpcode hi

namespace Machine

/-! ### The causes of NOKEY -/

/-- The opcodes of the commands that read the round-key store: ADD_ROUND_KEY, ENCRYPT and DECRYPT (R85, R211). -/
abbrev keyedOpcodes : List Nat := [0x16, 0x30, 0x31]

theorem withKeySchedule_err (s : State) (m : State → StateMatrix) :
    ∃ t, withKeySchedule s (fun s => stateResult (m s) s) = .next t ∧ t.err = if s.ksv = false then 2 else 0 := by
  cases h : s.ksv with
  | false => exact ⟨_, withKeySchedule_missing h, rfl⟩
  | true => exact ⟨_, withKeySchedule_valid h, rfl⟩

/-- A command that does not read the round-key store ends in `finish`. -/
theorem exec_err_of_unkeyedOpcode {i : Instr} (hi : i.opcode.toNat ∉ keyedOpcodes) (s : State) :
    ∃ t, exec i s = .next t ∧ t.err = 0 := by
  cases i with
  | addRoundKey rnd => exact absurd (List.mem_cons_self ..) hi
  | encrypt | decrypt => exact absurd (by decide) hi
  | _ => exact ⟨_, rfl, rfl⟩

/-- A command that reads the round-key store checks KSV first, its round index being legal. -/
theorem exec_err_of_keyedOpcode {i : Instr} (hi : i.opcode.toNat ∈ keyedOpcodes) (hfit : RoundFits i.opcode i.rnd)
    (s : State) : ∃ t, exec i s = .next t ∧ t.err = if s.ksv = false then 2 else 0 := by
  cases i with
  | addRoundKey rnd =>
    have hrnd : rnd.toNat < 11 := Nat.lt_succ_of_le ((roundFits_addRoundKey rnd).mp hfit)
    rw [exec_addRoundKey hrnd]
    exact withKeySchedule_err s fun s => addRoundKey s.state s.rk ⟨rnd.toNat, hrnd⟩
  | encrypt => exact exec_encrypt s ▸ withKeySchedule_err s fun s => load (encryptBlock (store s.state) s.rk)
  | decrypt => exact exec_decrypt s ▸ withKeySchedule_err s fun s => load (decryptBlock (store s.state) s.rk)
  | _ => exact absurd hi (by decide)

/-- ERR after a command whose round index is legal. -/
theorem exec_err {i : Instr} (hfit : RoundFits i.opcode i.rnd) (s : State) :
    ∃ t, exec i s = .next t ∧ t.err = if i.opcode.toNat ∈ keyedOpcodes ∧ s.ksv = false then 2 else 0 := by
  by_cases hi : i.opcode.toNat ∈ keyedOpcodes
  · simpa only [hi, true_and] using exec_err_of_keyedOpcode hi hfit s
  · simpa only [hi, false_and, if_false] using exec_err_of_unkeyedOpcode hi s

/-! ### The state after an error -/

/-- Of the shapes a command's end can have, only the one that writes ERR alone leaves a code other than 0. -/
theorem Effect.eq_of_err_ne_zero {i : Instr} {s t : State} (h : Effect i s t) (herr : t.err ≠ 0) :
    t = { s with err := t.err } := by
  cases h with
  | code c hc => rfl
  | byte v => exact absurd rfl herr
  | matrix m => exact absurd rfl herr
  | schedule hi => exact absurd rfl herr

/-! ### The statements -/

/-- Settles O7: a word the decoder rejects raises ILLEGAL, and after a decoded one ERR is what its command left. -/
theorem errorCausesAreExactlyIllegalAndNoKey : Obligations.ErrorCausesAreExactlyIllegalAndNoKey := by
  intro s
  obtain ⟨i, -, hd, -⟩ | ⟨e, hd, hstep⟩ := engineStep_cases s
  · have hlegal : ¬ ∀ i, decode s.cmdl ≠ .ok i := fun h => h i hd
    obtain ⟨t, he, herr⟩ := exec_err (roundFits_of_decode hd) s
    rw [opcode_of_decode hd] at herr
    exact ⟨_, engineStep_of_decode hd he, herr.trans (if_neg (forall_decode_ne_ok.not.mp hlegal)).symm⟩
  · have hillegal : ∀ i, decode s.cmdl ≠ .ok i := by simp [hd]
    exact ⟨_, hstep, (if_pos (forall_decode_ne_ok.mp hillegal)).symm⟩

/-- Settles O8: ILLEGAL is raised before a command begins, and a command that reports an error has written ERR alone. -/
theorem commandErrorHasNoPartialEffect : Obligations.CommandErrorHasNoPartialEffect := by
  intro s t hst herr
  obtain ⟨i, u, -, -, heffect, hstep⟩ | ⟨e, -, hstep⟩ := engineStep_cases s
  · obtain rfl : t = { u with busy := false } := Host.Outcome.next.inj (hst.symm.trans hstep)
    exact congrArg (State.setBusy · false) (heffect.eq_of_err_ne_zero herr)
  · obtain rfl : t = { s with err := 1, busy := false } := Host.Outcome.next.inj (hst.symm.trans hstep)
    rfl

end Machine

end Sys2Proof
end

section
/-! PROOF. Encoding and decoding undo each other (30_encoding.md R80 to R83). -/

namespace Sys2Proof

/-- The opcode map read both ways: a command's own fields select it. -/
theorem ofOpcode_opcode_rnd (i : Instr) : ofOpcode i.opcode i.rnd = some i := by
  cases i <;> rfl

/-- The only check on a command's term is R83's condition on its word's RND. -/
theorem wf_iff_roundFits (i : Instr) : i.wf = true ↔ RoundFits i.opcode i.rnd := by
  cases i with
  | addRoundKey rnd => exact decide_eq_true_iff.trans (roundFits_addRoundKey rnd).symm
  | _ => exact iff_of_true rfl rfl

theorem decode_encode {i : Instr} (h : i.wf = true) : decode (encode i) = .ok i := by
  refine decode_eq_ok.mpr ?_
  rw [encode, rsvField_append, rndField_append, opcField_append]
  exact ⟨rfl, ofOpcode_opcode_rnd i, (wf_iff_roundFits i).mp h⟩

theorem encode_of_decode {w : Word} {i : Instr} (h : decode w = .ok i) : encode i = w := by
  obtain ⟨hrsv, hi, hfit⟩ := decode_eq_ok.mp h
  exact (eq_append_iff_fields.mpr
    ⟨hrsv, (rnd_of_ofOpcode hi hfit).symm, (opcode_of_ofOpcode hi).symm⟩).symm

/-- Settles O2: the word's fields are the command's, and its round index fits its row. -/
theorem decodeOfEncodeIsTheCommand : Obligations.DecodeOfEncodeIsTheCommand :=
  fun _ => decode_encode

/-- Settles O3: a decoded command has the word's OPC and RND, and the word's RSV is 0. -/
theorem decodedWordIsTheCommandsOnlyWord : Obligations.DecodedWordIsTheCommandsOnlyWord :=
  fun _ i h => ⟨(wf_iff_roundFits i).mpr (roundFits_of_decode h), encode_of_decode h⟩

/-- Settles O1: each word is its command's encoding. -/
theorem tableWordsDecodeToTheirCommands : Obligations.TableWordsDecodeToTheirCommands :=
  ⟨decode_encode (i := .nop) rfl, decode_encode (i := .gfMul) rfl, decode_encode (i := .invSbox) rfl,
    decode_encode (i := .subBytes) rfl, decode_encode (i := .invMixColumns) rfl,
    decode_encode (i := .addRoundKey 3) rfl, decode_encode (i := .addRoundKey 10) rfl,
    decode_encode (i := .expandKey) rfl, decode_encode (i := .encrypt) rfl, decode_encode (i := .decrypt) rfl⟩

end Sys2Proof
end

section
/-! PROOF. Round key 0 is the key (43_key_schedule.md R176). -/

namespace Sys2Proof.Machine

theorem roundKeyMatrix_expandKey_zero (k : Block) : roundKeyMatrix (expandKey k) 0 = load k := by
  refine StateMatrix_ext fun r c => ?_
  have hword : (expandKey k)[4 * (0 : Fin 11).val + c.val] = blockWord k c := by
    simpa using getElem_expandKey_first k c
  rw [entry_roundKeyMatrix, hword, byteOf_blockWord, entry_load]

theorem store_roundKeyMatrix_expandKey_zero (k : Block) : store (roundKeyMatrix (expandKey k) 0) = k := by
  rw [roundKeyMatrix_expandKey_zero, store_load]

/-- Settles O34: words 0 to 3 of the schedule are the key's, and `store` undoes `load`. -/
theorem firstRoundKeyIsTheKey : Obligations.FirstRoundKeyIsTheKey :=
  store_roundKeyMatrix_expandKey_zero

end Sys2Proof.Machine
end

section
/-! PROOF. What a step can change (10_state.md R22 to R32) and the machine's invariant. -/

namespace Sys2Proof.Machine

/-! ### The engine step -/

/-- No command writes the latch, BUSY, OVR, an operand, the key or the host's side. -/
theorem Effect.frame {i : Instr} {s t : State} (h : Effect i s t) :
    t = { s with err := t.err, res := t.res, state := t.state, rk := t.rk, ksv := t.ksv } := by
  cases h <;> rfl

theorem engineStep_frame {s t : State} (h : engineStep s = .next t) :
    t = { s with busy := false, err := t.err, res := t.res, state := t.state, rk := t.rk, ksv := t.ksv } := by
  obtain ⟨i, u, -, -, heffect, hstep⟩ | ⟨e, -, hstep⟩ := engineStep_cases s
  · obtain rfl : t = { u with busy := false } := Host.Outcome.next.inj (h.symm.trans hstep)
    exact congrArg (State.setBusy · false) heffect.frame
  · obtain rfl : t = { s with err := 1, busy := false } := Host.Outcome.next.inj (h.symm.trans hstep)
    rfl

theorem engineStep_busy {s t : State} (h : engineStep s = .next t) : t.busy = false := by rw [engineStep_frame h]

theorem engineStep_host {s t : State} (h : engineStep s = .next t) : t.host = s.host := by rw [engineStep_frame h]

/-- Settles O9: the command's own frame, with BUSY cleared; an ILLEGAL report writes ERR and BUSY alone. -/
theorem engineStepFrame : Obligations.EngineStepFrame := fun _ _ => engineStep_frame

/-- Settles O5: the engine's turn is a step of `engineStep`, which reads the latch through the decoder. -/
theorem stepRunsTheLatchedCommand : Obligations.StepRunsTheLatchedCommand := by
  intro s i hn hd
  rw [step_engine hn, takeTurn_of_busy (nextAgent_engine_busy hn)]
  simp only [engineStep, execute, hd]
  cases exec i { s with turns := s.turns.tail } <;> rfl

/-- Settles O6: `nextAgent` names the engine in its three cases with BUSY = 1 only. -/
theorem engineMovesOnlyWhileBusy : Obligations.EngineMovesOnlyWhileBusy := by
  refine fun s => ⟨nextAgent_engine_busy, fun hb hh => ?noAccess, fun hb hh a => ?headOfTurns⟩
  case noAccess => simp only [nextAgent, hb, hh]
  case headOfTurns =>
    obtain ⟨op, rest, hcons⟩ := List.exists_cons_of_ne_nil hh
    simp only [nextAgent, hb, hcons]

/-! ### RK, KSV and ERR -/

/-- No host write reaches RK, KSV, ERR or the rest of the host's side. -/
theorem Written.frame {s t : State} {r : Reg} {v : Word} (h : Written s r v t) :
    t = { s with
      cmdl := t.cmdl, busy := t.busy, ovr := t.ovr, opa := t.opa, opb := t.opb, key := t.key, state := t.state } := by
  cases h <;> rfl

/-- What one step does to the fields the invariant is about: an executed EXPAND_KEY, another engine step, a reset, or
anything else. -/
theorem step_rk_ksv_err {s t : State} (h : step s = .next t) :
    ((nextAgent s = some .engine ∧ decode s.cmdl = .ok .expandKey) ∧
      t.rk = expandKey (keyBytes s.key) ∧ t.ksv = true ∧ t.err = 0) ∨
    (nextAgent s = some .engine ∧ t.rk = s.rk ∧ t.ksv = s.ksv ∧ t.err.toNat ≤ 2) ∨
    ((nextAgent s = some .host ∧ s.host.head? = some .reset) ∧ t.ksv = false ∧ t.err = 0) ∨
    (t.rk = s.rk ∧ t.ksv = s.ksv ∧ t.err = s.err) := by
  obtain ⟨hn, i, u, hd, heffect, rfl⟩ | ⟨hn, rfl⟩ | ⟨hn, hhost⟩ | ⟨-, rfl⟩ := step_effect h
  case inl =>
    cases heffect with
    | code c hc => exact .inr (.inl ⟨hn, takeTurn_rk s, takeTurn_ksv s, hc⟩)
    | byte v => exact .inr (.inl ⟨hn, takeTurn_rk s, takeTurn_ksv s, Nat.zero_le 2⟩)
    | matrix m => exact .inr (.inl ⟨hn, takeTurn_rk s, takeTurn_ksv s, Nat.zero_le 2⟩)
    | schedule hi =>
      subst hi
      have hkey : (takeTurn s).key = s.key := by rw [takeTurn_eq]
      exact .inl ⟨⟨hn, hd⟩, by rw [hkey], rfl, rfl⟩
  case inr.inl => exact .inr (.inl ⟨hn, takeTurn_rk s, takeTurn_ksv s, Nat.le_succ 1⟩)
  case inr.inr.inl =>
    obtain ⟨r, rest, -, rfl⟩ | ⟨r, v, rest, -, hw⟩ | ⟨rest, hh, rfl⟩ | ⟨rest, -, rfl⟩ := hhost
    · exact .inr (.inr (.inr ⟨takeTurn_rk s, takeTurn_ksv s, takeTurn_err s⟩))
    · rw [hw.frame]
      exact .inr (.inr (.inr ⟨takeTurn_rk s, takeTurn_ksv s, takeTurn_err s⟩))
    · exact .inr (.inr (.inl ⟨⟨hn, by rw [hh]; rfl⟩, rfl, rfl⟩))
    · rw [pollRead_eq]
      exact .inr (.inr (.inr ⟨takeTurn_rk s, takeTurn_ksv s, takeTurn_err s⟩))
  case inr.inr.inr => exact .inr (.inr (.inr ⟨rfl, rfl, rfl⟩))

/-- A flag that keeps its value is not raised. -/
theorem not_raised_of_eq {before after : Bool} (h : after = before) (h0 : before = false) : after ≠ true := by
  simp [h, h0]

/-- A flag that keeps its value is not cleared. -/
theorem not_cleared_of_eq {before after : Bool} (h : after = before) (h1 : before = true) : after ≠ false := by
  simp [h, h1]

/-- Settles O10: each of the four kinds of step in `step_rk_ksv_err` changes what it may. -/
theorem rkKsvErrChangeOnlyByTheirWriters : Obligations.RkKsvErrChangeOnlyByTheirWriters := by
  intro s t h
  obtain ⟨hexpand, -, hksv, -⟩ | ⟨hn, hrk, hksv, -⟩ | ⟨hreset, hksv, herr⟩ | ⟨hrk, hksv, herr⟩ := step_rk_ksv_err h
  · exact ⟨fun _ => .inl hexpand, fun _ _ => hexpand, fun _ h0 => absurd h0 (by simp [hksv]), fun _ => .inl hexpand.1⟩
  · exact ⟨fun hne => absurd hrk hne, fun h0 h1 => absurd h1 (not_raised_of_eq hksv h0),
      fun h1 h0 => absurd h0 (not_cleared_of_eq hksv h1), fun _ => .inl hn⟩
  · exact ⟨fun _ => .inr hreset, fun _ h1 => absurd h1 (by simp [hksv]), fun _ _ => hreset,
      fun _ => .inr ⟨hreset.1, hreset.2, herr⟩⟩
  · exact ⟨fun hne => absurd hrk hne, fun h0 h1 => absurd h1 (not_raised_of_eq hksv h0),
      fun h1 h0 => absurd h0 (not_cleared_of_eq hksv h1), fun hne => absurd herr hne⟩

/-! ### The invariant -/

theorem State.ErrLegal.of_err_eq {s t : State} (hs : s.ErrLegal) (h : t.err = s.err) : t.ErrLegal := by
  rw [State.ErrLegal, h]
  exact hs

theorem State.errLegal_of_err_zero {s : State} (h : s.err = 0) : s.ErrLegal := by
  simp [State.ErrLegal, h]

theorem State.ScheduleExpanded.of_rk_ksv_eq {s t : State} (hs : s.ScheduleExpanded) (hrk : t.rk = s.rk)
    (hksv : t.ksv = s.ksv) : t.ScheduleExpanded := by
  rw [State.ScheduleExpanded, hrk, hksv]
  exact hs

theorem State.scheduleExpanded_of_rk {s : State} {k : Block} (h : s.rk = expandKey k) : s.ScheduleExpanded :=
  fun _ => by rw [h, store_roundKeyMatrix_expandKey_zero]

theorem State.scheduleExpanded_of_ksv {s : State} (h : s.ksv = false) : s.ScheduleExpanded :=
  fun h1 => absurd h1 (by simp [h])

/-- Settles O58: EXPAND_KEY makes RK the expansion of its round key 0, a reset clears KSV, and no other step changes RK or
KSV. -/
theorem stepKeepsTheInvariant : Obligations.StepKeepsTheInvariant := by
  rintro s t ⟨hlegal, hexpanded⟩ h
  obtain ⟨-, hrk, -, herr⟩ | ⟨-, hrk, hksv, herr⟩ | ⟨-, hksv, herr⟩ | ⟨hrk, hksv, herr⟩ := step_rk_ksv_err h
  · exact ⟨State.errLegal_of_err_zero herr, State.scheduleExpanded_of_rk hrk⟩
  · exact ⟨herr, hexpanded.of_rk_ksv_eq hrk hksv⟩
  · exact ⟨State.errLegal_of_err_zero herr, State.scheduleExpanded_of_ksv hksv⟩
  · exact ⟨hlegal.of_err_eq herr, hexpanded.of_rk_ksv_eq hrk hksv⟩

/-- Settles O59: the power-on reset leaves ERR and KSV 0. -/
theorem resetHasTheInvariant : Obligations.ResetHasTheInvariant :=
  ⟨State.errLegal_of_err_zero rfl, State.scheduleExpanded_of_ksv rfl⟩

/-! ### OVR -/

/-- Settles O11: of the steps only a dropped write, a STATUS write with bit 8 set and a reset write OVR. -/
theorem ovrSetByDroppedWriteClearedByStatusOrReset : Obligations.OvrSetByDroppedWriteClearedByStatusOrReset := by
  intro s t h
  have hkept (hovr : t.ovr = s.ovr) {p q : Prop} :
      (s.ovr = false → t.ovr = true → p) ∧ (s.ovr = true → t.ovr = false → q) :=
    ⟨fun h0 h1 => absurd h1 (not_raised_of_eq hovr h0), fun h1 h0 => absurd h0 (not_cleared_of_eq hovr h1)⟩
  obtain ⟨-, i, u, -, heffect, rfl⟩ | ⟨-, rfl⟩ | ⟨hn, hhost⟩ | ⟨-, rfl⟩ := step_effect h
  case inl =>
    refine hkept ?_
    rw [heffect.frame]
    exact takeTurn_ovr s
  case inr.inl => exact hkept (takeTurn_ovr s)
  case inr.inr.inl =>
    obtain ⟨r, rest, -, rfl⟩ | ⟨r, v, rest, hh, hw⟩ | ⟨rest, hh, rfl⟩ | ⟨rest, -, rfl⟩ := hhost
    · exact hkept (takeTurn_ovr s)
    · cases hw with
      | dropped hb hr =>
        exact ⟨fun _ _ => ⟨hn, by simpa using hb, r, v, rest, hh, hr⟩, fun _ h0 => absurd h0 (by simp)⟩
      | cleared hr hv =>
        subst hr
        exact ⟨fun _ h1 => absurd h1 (by simp), fun _ _ => ⟨hn, .inr ⟨v, rest, hh, hv⟩⟩⟩
      | _ => exact hkept (takeTurn_ovr s)
    · exact ⟨fun _ h1 => absurd h1 (by simp [resetEvent]), fun _ _ => ⟨hn, .inl (by rw [hh]; rfl)⟩⟩
    · exact hkept (by rw [pollRead_eq]; exact takeTurn_ovr s)
  case inr.inr.inr => exact hkept rfl

end Sys2Proof.Machine
end

section
/-! PROOF. `gf_mul` as a product of polynomials (40_gf_arith.md R100), its inverses (R105), and the S-box from them
(41_sbox.md R121). -/

namespace Sys2Proof.Machine

/-! ### The product of two polynomials is linear in each -/

/-- The copy of `a` that bit `k` of `b` adds to the product. -/
def polyTerm (a b : BitVec 16) (k : Nat) : BitVec 16 := if b.getLsbD k then a <<< k else 0

theorem polyMul_eq_foldl (a b : BitVec 16) :
    polyMul a b = (List.range 16).foldl (fun p k => p ^^^ polyTerm a b k) 0 := by
  have hterm (p : BitVec 16) (k : Nat) : (if b.getLsbD k then p ^^^ (a <<< k) else p) = p ^^^ polyTerm a b k := by
    rw [polyTerm]
    split
    · rfl
    · exact BitVec.xor_zero.symm
  simp only [polyMul, hterm]

theorem polyTerm_xor_left (a a' b : BitVec 16) (k : Nat) :
    polyTerm (a ^^^ a') b k = polyTerm a b k ^^^ polyTerm a' b k := by
  simp only [polyTerm]
  split
  · exact BitVec.shiftLeft_xor_distrib ..
  · rfl

theorem polyTerm_xor_right (a b b' : BitVec 16) (k : Nat) :
    polyTerm a (b ^^^ b') k = polyTerm a b k ^^^ polyTerm a b' k := by
  simp only [polyTerm, BitVec.getLsbD_xor]
  cases b.getLsbD k <;> cases b'.getLsbD k <;> simp

/-- The sum of sums is the sum of the two. -/
theorem foldl_xor_xor (f g : Nat → BitVec 16) (l : List Nat) (p q : BitVec 16) :
    l.foldl (fun p k => p ^^^ (f k ^^^ g k)) (p ^^^ q) =
      l.foldl (fun p k => p ^^^ f k) p ^^^ l.foldl (fun p k => p ^^^ g k) q := by
  induction l generalizing p q with
  | nil => rfl
  | cons k l ih =>
    have hswap : p ^^^ q ^^^ (f k ^^^ g k) = p ^^^ f k ^^^ (q ^^^ g k) := by ac_rfl
    simp only [List.foldl_cons, hswap, ih]

theorem polyMul_xor_left (a a' b : BitVec 16) : polyMul (a ^^^ a') b = polyMul a b ^^^ polyMul a' b := by
  simp only [polyMul_eq_foldl, polyTerm_xor_left]
  exact foldl_xor_xor _ _ _ 0 0

theorem polyMul_xor_right (a b b' : BitVec 16) : polyMul a (b ^^^ b') = polyMul a b ^^^ polyMul a b' := by
  simp only [polyMul_eq_foldl, polyTerm_xor_right]
  exact foldl_xor_xor _ _ _ 0 0

theorem zero_polyMul (b : BitVec 16) : polyMul 0 b = 0 := by
  simpa using polyMul_xor_left 0 0 b

theorem polyMul_zero (a : BitVec 16) : polyMul a 0 = 0 := by
  simpa using polyMul_xor_right a 0 0

theorem zeroExtend_xor {m : Nat} (a b : BitVec m) : (a ^^^ b).zeroExtend 16 = a.zeroExtend 16 ^^^ b.zeroExtend 16 :=
  BitVec.setWidth_xor

theorem zeroExtend_zero : (0 : Byte).zeroExtend 16 = 0 := rfl

/-! ### The product reduced -/

/-- `p` is a multiple of x^8+x^4+x^3+x+1, by a polynomial of degree below 7, plus `r`. -/
def ReducesTo (p : BitVec 16) (r : Byte) : Prop :=
  ∃ q : BitVec 7, p = polyMul (q.zeroExtend 16) 0x011B ^^^ r.zeroExtend 16

theorem reducesTo_zero : ReducesTo 0 0 := ⟨0, by decide⟩

theorem ReducesTo.xor {p p' : BitVec 16} {r r' : Byte} (h : ReducesTo p r) (h' : ReducesTo p' r') :
    ReducesTo (p ^^^ p') (r ^^^ r') := by
  obtain ⟨q, rfl⟩ := h
  obtain ⟨q', rfl⟩ := h'
  refine ⟨q ^^^ q', ?_⟩
  rw [zeroExtend_xor, zeroExtend_xor, polyMul_xor_left]
  ac_rfl

/-- The powers of x up to the highest in a product of two bytes reduce to that many doublings of 1. -/
theorem twoPow_reducesTo : ∀ n : Fin 15, ReducesTo (BitVec.twoPow 16 n) (xtime^[n] 1) := by
  unfold ReducesTo
  decide

theorem polyMul_twoPow : ∀ j k : Fin 8,
    polyMul ((BitVec.twoPow 8 j).zeroExtend 16) ((BitVec.twoPow 8 k).zeroExtend 16) = BitVec.twoPow 16 (k + j) := by
  decide

theorem gfMul_twoPow_twoPow (j k : Fin 8) :
    gfMul (BitVec.twoPow 8 j) (BitVec.twoPow 8 k) = xtime^[k.val + j.val] 1 := by
  rw [gfMul_twoPow, ← xtime_iterate_one, Function.iterate_add_apply]

/-- Both products are linear in each operand, so it is enough that they agree on the powers of x. -/
theorem polyMul_reducesTo_gfMul (a b : Byte) :
    ReducesTo (polyMul (a.zeroExtend 16) (b.zeroExtend 16)) (gfMul a b) := by
  induction a using byte_xor_induction with
  | zero =>
    rw [zero_gfMul, zeroExtend_zero, zero_polyMul]
    exact reducesTo_zero
  | xor a a' ih ih' =>
    rw [gfMul_xor_left, zeroExtend_xor, polyMul_xor_left]
    exact ih.xor ih'
  | twoPow j =>
    induction b using byte_xor_induction with
    | zero =>
      rw [gfMul_zero, zeroExtend_zero, polyMul_zero]
      exact reducesTo_zero
    | xor b b' ih ih' =>
      rw [gfMul_xor_right, zeroExtend_xor b b', polyMul_xor_right]
      exact ih.xor ih'
    | twoPow k =>
      rw [polyMul_twoPow, gfMul_twoPow_twoPow]
      exact twoPow_reducesTo ⟨k.val + j.val, by omega⟩

/-- Settles O13: the quotient is added up from those of the powers of x. -/
theorem gfMulIsTheReducedPolynomialProduct : Obligations.GfMulIsTheReducedPolynomialProduct :=
  polyMul_reducesTo_gfMul

/-! ### Inverses -/

/-- The affine map of R121 undone. -/
def sboxAffineInv (x : Byte) : Byte := x.rotateLeft 1 ^^^ x.rotateLeft 3 ^^^ x.rotateLeft 6 ^^^ 0x05

theorem sboxAffine_sboxAffineInv : ∀ x : Byte, sboxAffine (sboxAffineInv x) = x := by decide

/-- The inverse of a byte as the S-box holds it. -/
def gfInv (a : Byte) : Byte := sboxAffineInv (subByte a)

theorem gfMul_gfInv : ∀ a : Byte, a ≠ 0 → gfMul a (gfInv a) = 1 := by decide

theorem ne_zero_of_gfMul_eq_one {a b : Byte} (h : gfMul a b = 1) : a ≠ 0 := by
  rintro rfl
  exact absurd ((zero_gfMul b).symm.trans h) (by decide)

/-- In a commutative and associative product two inverses of one byte are equal. -/
theorem gfMul_inverse_unique {a b c : Byte} (hb : gfMul a b = 1) (hc : gfMul a c = 1) : c = b :=
  calc c = gfMul (gfMul a b) c := by rw [hb, one_gfMul]
    _ = gfMul b (gfMul a c) := by rw [gfMul_comm a b, gfMul_assoc]
    _ = b := by rw [hc, gfMul_one]

/-- Settles O14: `gfInv` gives an inverse, and a commutative and associative product has no second one. -/
theorem gfMulIsAssociativeWithInverses : Obligations.GfMulIsAssociativeWithInverses :=
  ⟨gfMul_two, gfMul_assoc, fun a ha => ⟨gfInv a, gfMul_gfInv a ha, fun _ => gfMul_inverse_unique (gfMul_gfInv a ha)⟩,
    fun _ h => ne_zero_of_gfMul_eq_one h rfl⟩

/-- Settles O19: a byte's only inverse is `gfInv`, from which the affine map leads back to the S-box. -/
theorem sboxIsAffineOfTheInverse : Obligations.SboxIsAffineOfTheInverse := by
  refine ⟨fun a b h => ?inverse, rfl⟩
  case inverse =>
    rw [gfMul_inverse_unique (gfMul_gfInv a (ne_zero_of_gfMul_eq_one h)) h, gfInv, sboxAffine_sboxAffineInv]

end Sys2Proof.Machine
end

section
/-! PROOF. ADD_ROUND_KEY (42_transforms.md R156), the cipher commands as single transforms (60_exceptions.md R223), and
who reads the key (10_state.md R32). -/

namespace Sys2Proof.Machine

/-! ### ADD_ROUND_KEY's result and frame -/

theorem exec_addRoundKey_keyed {s : State} {rnd : BitVec 4} (hrnd : rnd.toNat < 11) (h : s.ksv = true) :
    exec (.addRoundKey rnd) s =
      .next { s with state := addRoundKey s.state s.rk ⟨rnd.toNat, hrnd⟩, err := 0 } := by
  rw [exec_addRoundKey hrnd, withKeySchedule_valid h, stateResult_eq]

theorem exec_addRoundKey_unkeyed {s : State} {rnd : BitVec 4} (hrnd : rnd.toNat < 11) (h : s.ksv = false) :
    exec (.addRoundKey rnd) s = .next { s with err := 2 } :=
  (exec_addRoundKey hrnd s).trans (withKeySchedule_missing h)

theorem encode_addRoundKey : ∀ rnd : BitVec 4, encode (.addRoundKey rnd) = 0x00000016 ||| (rnd.zeroExtend 32 <<< 8) := by
  decide

/-- The illegal words with ADD_ROUND_KEY's OPC (R83, R84). -/
theorem engineStep_addRoundKey_illegal {s : State} (hopc : opcField s.cmdl = 0x16)
    (hbad : 10 < (rndField s.cmdl).toNat ∨ rsvField s.cmdl ≠ 0) :
    engineStep s = .next { s with err := 1, busy := false } := by
  obtain ⟨i, -, hd, -⟩ | ⟨-, -, hstep⟩ := engineStep_cases s
  · obtain ⟨hrsv, -, hfit⟩ := decode_eq_ok.mp hd
    rw [hopc, roundFits_addRoundKey] at hfit
    exact absurd hbad (by simp [hrsv, hfit])
  · exact hstep

/-- A byte XORed with itself is 0. -/
theorem addRoundKey_self {m : StateMatrix} {w : Schedule} {rnd : Fin 11} (h : roundKeyMatrix w rnd = m) :
    addRoundKey m w rnd = load (Vector.replicate 16 0) := by
  refine StateMatrix_ext fun r c => ?_
  rw [entry_addRoundKey, ← entry_roundKeyMatrix, h, BitVec.xor_self, entry_load, Vector.getElem_replicate]
  rfl

theorem addRoundKey_example :
    addRoundKey
        (load #v[0x00, 0x01, 0x02, 0x03, 0x04, 0x05, 0x06, 0x07, 0x08, 0x09, 0x0a, 0x0b, 0x0c, 0x0d, 0x0e, 0x0f])
        (expandKey #v[0x00, 0x01, 0x02, 0x03, 0x04, 0x05, 0x06, 0x07, 0x08, 0x09, 0x0a, 0x0b, 0x0c, 0x0d, 0x0e, 0x0f]) 1 =
      load #v[0xd6, 0xab, 0x76, 0xfe, 0xd6, 0xaa, 0x74, 0xfd, 0xd2, 0xaf, 0x72, 0xfa, 0xda, 0xa6, 0x78, 0xf1] := by
  decide +kernel

/-- Settles O30: the command is a `stateResult` under the key-schedule check, after the check of its round index; a second
XOR undoes the first. -/
theorem addRoundKeyCommand : Obligations.AddRoundKeyCommand := by
  refine ⟨encode_addRoundKey, fun s rnd h hk => ⟨_, exec_addRoundKey_keyed (Nat.lt_succ_of_le h) hk, rfl, ?xors⟩,
    fun s rnd h => exec_addRoundKey_unkeyed (Nat.lt_succ_of_le h),
    fun s rnd h => exec_addRoundKey_out (Nat.not_lt.mpr h) s, fun s => engineStep_addRoundKey_illegal,
    fun s rnd h hk => ?twice, fun s k hk hrk hst => ?zero, fun s hk hrk hst => ?vector⟩
  case xors => exact entry_addRoundKey s.state s.rk ⟨rnd.toNat, Nat.lt_succ_of_le h⟩
  case twice => simp only [execAll, exec_addRoundKey_keyed (Nat.lt_succ_of_le h), hk, addRoundKey_addRoundKey]
  case zero =>
    rw [exec_addRoundKey_keyed (by decide) hk, hrk, hst, ← addRoundKey_self (roundKeyMatrix_expandKey_zero k)]
    rfl
  case vector =>
    rw [exec_addRoundKey_keyed (by decide) hk, hrk, hst, ← addRoundKey_example]
    rfl

/-! ### ENCRYPT and DECRYPT as single transforms -/

/-- With KSV = 1 the commands replace STATE by `f` of RK and STATE, leave ERR at NONE and change nothing else. -/
def Transforms (is : List Instr) (f : Schedule → StateMatrix → StateMatrix) : Prop :=
  ∀ s : State, s.ksv = true → execAll is s = .next { s with state := f s.rk s.state, err := 0 }

theorem Transforms.append {is js : List Instr} {f g : Schedule → StateMatrix → StateMatrix} (hf : Transforms is f)
    (hg : Transforms js g) : Transforms (is ++ js) fun w m => g w (f w m) :=
  fun s hk => (execAll_append (hf s hk)).trans (hg _ hk)

/-- A block of commands for each round, after the commands `is`. -/
theorem Transforms.append_flatMap {block : Fin 11 → List Instr} {g : Schedule → StateMatrix → Fin 11 → StateMatrix}
    (hg : ∀ rnd, Transforms (block rnd) fun w m => g w m rnd) (rounds : List (Fin 11)) {is : List Instr}
    {f : Schedule → StateMatrix → StateMatrix} (hf : Transforms is f) :
    Transforms (is ++ rounds.flatMap block) fun w m => rounds.foldl (g w) (f w m) := by
  induction rounds generalizing is f with
  | nil =>
    rw [List.flatMap_nil, List.append_nil]
    exact hf
  | cons rnd rounds ih =>
    rw [List.flatMap_cons, ← List.append_assoc]
    exact ih (hf.append (hg rnd))

/-- ADD_ROUND_KEY's term for a round index. -/
def addRoundKeyOf (rnd : Fin 11) : Instr := .addRoundKey (BitVec.ofNat 4 rnd.val)

theorem exec_addRoundKeyOf {s : State} (rnd : Fin 11) (h : s.ksv = true) :
    exec (addRoundKeyOf rnd) s = .next { s with state := addRoundKey s.state s.rk rnd, err := 0 } := by
  have hval : (BitVec.ofNat 4 rnd.val).toNat = rnd.val := by
    rw [BitVec.toNat_ofNat, Nat.mod_eq_of_lt (by omega)]
  rw [addRoundKeyOf, exec_addRoundKey_keyed (by omega) h]
  simp only [hval]

/-- One of the rounds 1 to 9 of encryption as commands (R190). -/
def encryptRoundCommands (rnd : Fin 11) : List Instr := [.subBytes, .shiftRows, .mixColumns, addRoundKeyOf rnd]

/-- One of the rounds 9 to 1 of decryption as commands (R191). -/
def decryptRoundCommands (rnd : Fin 11) : List Instr := [addRoundKeyOf rnd, .invMixColumns, .invShiftRows, .invSubBytes]

theorem encryptRoundCommands_transforms (rnd : Fin 11) :
    Transforms (encryptRoundCommands rnd) fun w m => encryptRound w m rnd := fun s h => by
  simp only [encryptRoundCommands, execAll, exec_subBytes, exec_shiftRows, exec_mixColumns, exec_addRoundKeyOf, h,
    encryptRound]

theorem decryptRoundCommands_transforms (rnd : Fin 11) :
    Transforms (decryptRoundCommands rnd) fun w m => decryptRound w m rnd := fun s h => by
  simp only [decryptRoundCommands, execAll, exec_invSubBytes, exec_invShiftRows, exec_invMixColumns, exec_addRoundKeyOf,
    h, decryptRound]

theorem encryptCommands_eq :
    encryptCommands =
      [addRoundKeyOf 0] ++ [1, 2, 3, 4, 5, 6, 7, 8, 9].flatMap encryptRoundCommands ++
        [.subBytes, .shiftRows, addRoundKeyOf 10] := rfl

theorem decryptCommands_eq :
    decryptCommands =
      [addRoundKeyOf 10, .invShiftRows, .invSubBytes] ++ [9, 8, 7, 6, 5, 4, 3, 2, 1].flatMap decryptRoundCommands ++
        [addRoundKeyOf 0] := rfl

theorem encryptCommands_transforms : Transforms encryptCommands fun w m => encryptState m w := by
  have hfirst : Transforms [addRoundKeyOf 0] fun w m => addRoundKey m w 0 := fun s h => by
    simp only [execAll, exec_addRoundKeyOf, h]
  have hlast : Transforms [.subBytes, .shiftRows, addRoundKeyOf 10]
      fun w m => addRoundKey (shiftRows (subBytes m)) w 10 := fun s h => by
    simp only [execAll, exec_subBytes, exec_shiftRows, exec_addRoundKeyOf, h]
  rw [encryptCommands_eq]
  exact (hfirst.append_flatMap encryptRoundCommands_transforms _).append hlast

theorem decryptCommands_transforms : Transforms decryptCommands fun w m => decryptState m w := by
  have hfirst : Transforms [addRoundKeyOf 10, .invShiftRows, .invSubBytes]
      fun w m => invSubBytes (invShiftRows (addRoundKey m w 10)) := fun s h => by
    simp only [execAll, exec_invSubBytes, exec_invShiftRows, exec_addRoundKeyOf, h]
  have hlast : Transforms [addRoundKeyOf 0] fun w m => addRoundKey m w 0 := fun s h => by
    simp only [execAll, exec_addRoundKeyOf, h]
  rw [decryptCommands_eq]
  exact (hfirst.append_flatMap decryptRoundCommands_transforms _).append hlast

/-- Settles O40: the first and last transforms run one by one, the nine rounds between them as blocks. -/
theorem cipherCommandsEqualSingleTransforms : Obligations.CipherCommandsEqualSingleTransforms :=
  fun s h => ⟨(exec_encrypt_keyed h).trans (encryptCommands_transforms s h).symm,
    (exec_decrypt_keyed h).trans (decryptCommands_transforms s h).symm⟩

/-! ### What no command but EXPAND_KEY reads: the key; and what none reads: the host's side -/

/-- Other contents of the key registers, of the turns and of the host's read data. -/
def withUnread (s : State) (key : Quad Word) (turns : List Agent) (rdata : Option Word) : State :=
  { s with key := key, turns := turns, rdata := rdata }

theorem withKeySchedule_withUnread {m : State → StateMatrix} {s t : State} {key : Quad Word} {turns : List Agent}
    {rdata : Option Word} (hm : m (withUnread s key turns rdata) = m s)
    (h : withKeySchedule s (fun s => stateResult (m s) s) = .next t) :
    withKeySchedule (withUnread s key turns rdata) (fun s => stateResult (m s) s) =
      .next (withUnread t key turns rdata) := by
  have hksv : (withUnread s key turns rdata).ksv = s.ksv := rfl
  cases hk : s.ksv with
  | false =>
    rw [withKeySchedule_missing hk] at h
    cases h
    exact withKeySchedule_missing (hksv.trans hk)
  | true =>
    rw [withKeySchedule_valid hk] at h
    cases h
    rw [withKeySchedule_valid (hksv.trans hk), hm]
    rfl

/-- A command gives the same result whatever the turns and the read data are, and, unless it is EXPAND_KEY, whatever the
key is. -/
theorem exec_withUnread {i : Instr} {s t : State} {key : Quad Word} (hkey : i = .expandKey → key = s.key)
    (turns : List Agent) (rdata : Option Word) (h : exec i s = .next t) :
    exec i (withUnread s key turns rdata) = .next (withUnread t key turns rdata) := by
  cases i with
  | addRoundKey rnd =>
    by_cases hrnd : rnd.toNat < 11
    · rw [exec_addRoundKey hrnd] at h ⊢
      exact withKeySchedule_withUnread (m := fun s => addRoundKey s.state s.rk ⟨rnd.toNat, hrnd⟩) rfl h
    · rw [exec_addRoundKey_out hrnd] at h ⊢
      cases h
      rfl
  | encrypt => exact withKeySchedule_withUnread (m := fun s => load (encryptBlock (store s.state) s.rk)) rfl h
  | decrypt => exact withKeySchedule_withUnread (m := fun s => load (decryptBlock (store s.state) s.rk)) rfl h
  | expandKey =>
    obtain rfl := hkey rfl
    cases h
    rfl
  | _ =>
    cases h
    rfl

theorem Effect.rk_ksv_of_ne_expandKey {i : Instr} {s t : State} (h : Effect i s t) (hi : i ≠ .expandKey) :
    t.rk = s.rk ∧ t.ksv = s.ksv := by
  cases h with
  | schedule h => exact absurd h hi
  | _ => exact ⟨rfl, rfl⟩

theorem exec_next_effect {i : Instr} {s t : State} (h : exec i s = .next t) : Effect i s t := by
  obtain ⟨u, hu, heffect⟩ := exec_effect i s
  obtain rfl : t = u := Host.Outcome.next.inj (h.symm.trans hu)
  exact heffect

/-- The exact value of no register is the key's. -/
theorem regValue_key (s : State) (key : Quad Word) (r : Reg) : regValue { s with key := key } r = regValue s r := by
  cases r <;> rfl

theorem readValue_exact {s : State} {r : Reg} (h : s.busy = false ∨ hiddenWhileBusy r = false) :
    readValue s r = regValue s r := by
  rw [readValue, Bool.and_eq_false_iff.mpr h]
  rfl

/-- Settles O41: `exec_withUnread` for the key alone, and reads return `regValue` where they are exact. -/
theorem keyRegistersReadOnlyByExpandKey : Obligations.KeyRegistersReadOnlyByExpandKey := by
  refine ⟨fun i s t key hi h => ?command, fun s key r h => ?hostRead⟩
  case command =>
    have heffect := exec_next_effect h
    have hframe := heffect.frame
    have hunread := exec_withUnread (key := key) (fun he => absurd he hi) s.turns s.rdata h
    have ht : withUnread t key s.turns s.rdata = { t with key := key } := by rw [hframe]; rfl
    exact ⟨hunread.trans (congrArg _ ht), by rw [hframe], heffect.rk_ksv_of_ne_expandKey hi⟩
  case hostRead => rw [readValue_exact h, readValue_exact (s := { s with key := key }) h, regValue_key]

end Sys2Proof.Machine
end

section
/-! PROOF. The register map, STATUS, host reads and resets (20_memory.md R50, R54, R60; 10_state.md R24;
70_reset_and_hazards.md R240). -/

namespace Sys2Proof.Machine

/-! ### The map and STATUS -/

/-- Settles O42: an access names the register whose address it is, and the map lists the addresses. -/
theorem registerMap : Obligations.RegisterMap := by
  refine fun addr width r => access_eq_ok.trans (and_congr_right fun _ => ?_)
  cases r <;> exact eq_comm

/-- Settles O44: the fields of STATUS are 1, 1, 3, 3, 1 and 23 bits from bit 0 up, read for each of their values. -/
theorem statusLayout : Obligations.StatusLayout := by
  intro s
  unfold statusWord
  generalize s.busy = busy
  generalize s.ksv = ksv
  generalize s.err = err
  generalize s.ovr = ovr
  revert busy ksv err ovr
  decide

theorem statusWord_toNat (s : State) :
    (statusWord s).toNat = s.ovr.toNat * 0x100 + s.err.toNat * 4 + s.ksv.toNat * 2 + s.busy.toNat := by
  unfold statusWord
  generalize s.busy = busy
  generalize s.ksv = ksv
  generalize s.err = err
  generalize s.ovr = ovr
  revert busy ksv err ovr
  decide

@[simp] theorem statusWord_takeTurn (s : State) : statusWord (takeTurn s) = statusWord s := by
  simp only [statusWord, takeTurn_ovr, takeTurn_err, takeTurn_ksv, takeTurn_busy]

/-! ### The host's turn, line by line -/

theorem hostStep_read {s : State} {r : Reg} {rest : List HostOp} (hh : s.host = .read r.addr 4 :: rest) :
    hostStep s = .next (memRead (s.setHost rest) r) := by
  simp only [hostStep, hh, access_addr]

theorem hostStep_write {s : State} {r : Reg} {v : Word} {rest : List HostOp} (hh : s.host = .write r.addr 4 v :: rest) :
    hostStep s = .next (memWrite (s.setHost rest) r v) := by
  simp only [hostStep, hh, access_addr]

theorem hostStep_reset {s : State} {rest : List HostOp} (hh : s.host = .reset :: rest) :
    hostStep s = .next (resetEvent (s.setHost rest)) := by
  simp only [hostStep, hh]

theorem hostStep_poll {s : State} {rest : List HostOp} (hh : s.host = .poll :: rest) :
    hostStep s = .next { s with host := if s.busy then s.host else rest, rdata := some (statusWord s) } := by
  rw [← pollRead_eq]
  simp only [hostStep, hh]

/-! ### Reads -/

theorem drawsAfterRead_exact {s : State} {r : Reg} (h : s.busy = false ∨ hiddenWhileBusy r = false) :
    drawsAfterRead s r = s.draws := by
  rw [drawsAfterRead, Bool.and_eq_false_iff.mpr h]
  rfl

/-- A BUSY_READ is a fresh draw (R60). -/
theorem read_hidden {s : State} {r : Reg} (hb : s.busy = true) (hr : hiddenWhileBusy r = true) :
    readValue s r = Config.busyRead s.draws r.addr s.dataRegs ∧ drawsAfterRead s r = s.draws + 1 := by
  simp [readValue, drawsAfterRead, hb, hr]

/-- Reads depend on the engine's registers and the draw counter alone. -/
theorem memRead_withHostSide (s : State) (turns : List Agent) (host : List HostOp) (r : Reg) :
    memRead { s with turns := turns, host := host } r = { memRead s r with turns := turns, host := host } := by
  cases r <;> rfl

theorem step_read {s : State} {r : Reg} {rest : List HostOp} (hn : nextAgent s = some .host)
    (hh : s.host = .read r.addr 4 :: rest) :
    step s = .next
      { takeTurn s with host := rest, rdata := some (readValue s r), draws := drawsAfterRead s r } := by
  have hread := memRead_withHostSide s (takeTurn s).turns rest r
  rw [step_host hn, hostStep_read ((takeTurn_host s).trans hh), takeTurn_eq]
  exact congrArg _ hread

/-- A register that is not hidden while BUSY = 1 reads exactly at any time. -/
theorem read_visible (s : State) {r : Reg} (hr : hiddenWhileBusy r = false) :
    readValue s r = regValue s r ∧ drawsAfterRead s r = s.draws :=
  ⟨readValue_exact (.inr hr), drawsAfterRead_exact (.inr hr)⟩

theorem read_idle {s : State} {r : Reg} (hb : s.busy = false) :
    readValue s r = regValue s r ∧ drawsAfterRead s r = s.draws :=
  ⟨readValue_exact (.inl hb), drawsAfterRead_exact (.inl hb)⟩

theorem toNat_zeroExtend_byte (b : Byte) : (b.zeroExtend 32).toNat = b.toNat :=
  BitVec.toNat_setWidth_of_le (by decide)

/-- Settles O45: the value and the draw counter by register, for a hidden one by BUSY. -/
theorem hostReadReturnsTheRegister : Obligations.HostReadReturnsTheRegister := by
  intro s r rest hn hh
  refine ⟨_, _, step_read hn hh, ?_⟩
  cases r with
  | cmd => exact read_visible s rfl
  | status =>
    obtain ⟨hv, hd⟩ := read_visible s (r := .status) rfl
    exact ⟨hv ▸ statusWord_toNat s, hd⟩
  | opa =>
    obtain ⟨hv, hd⟩ := read_visible s (r := .opa) rfl
    exact ⟨hv ▸ toNat_zeroExtend_byte s.opa, hd⟩
  | opb =>
    obtain ⟨hv, hd⟩ := read_visible s (r := .opb) rfl
    exact ⟨hv ▸ toNat_zeroExtend_byte s.opb, hd⟩
  | key j => exact read_visible s rfl
  | res =>
    cases hb : s.busy with
    | true => exact read_hidden hb rfl
    | false =>
      obtain ⟨hv, hd⟩ := read_idle (r := .res) hb
      exact ⟨hv ▸ toNat_zeroExtend_byte s.res, hd⟩
  | state c =>
    cases hb : s.busy with
    | true => exact read_hidden hb rfl
    | false =>
      obtain ⟨hv, hd⟩ := read_idle (r := .state c) hb
      exact ⟨fun k => hv ▸ byteOf_stateWord s.state c k, hd⟩
  | rkw i =>
    cases hb : s.busy with
    | true => exact read_hidden hb rfl
    | false => exact read_idle hb

/-! ### Resets and idling -/

theorem nextAgent_ne_engine {s : State} (h : s.busy = false) : nextAgent s ≠ some .engine :=
  fun hn => absurd (nextAgent_engine_busy hn) (by simp [h])

theorem step_idle {s : State} (hb : s.busy = false) (hh : s.host = []) : step s = .next s := by
  have hn : nextAgent s = none := by simp [nextAgent_idle hb, hh]
  simp only [step, move, hn]

theorem statusWord_eq_zero {s : State} (hb : s.busy = false) (hk : s.ksv = false) (he : s.err = 0)
    (ho : s.ovr = false) : statusWord s = 0 := by
  rw [statusWord, hb, hk, he, ho]
  rfl

/-- Settles O51: `resetEvent_eq`, whose draw does not see the turns and the host's program. -/
theorem resetEventClearsControlAndDrawsData : Obligations.ResetEventClearsControlAndDrawsData := by
  intro s rest hn hh
  have hdraw : Config.resetData ((takeTurn s).setHost rest).draws ((takeTurn s).setHost rest).dataRegs =
      Config.resetData s.draws s.dataRegs := by
    rw [takeTurn_eq]
    rfl
  refine ⟨_, _, (step_host hn).trans (hostStep_reset ((takeTurn_host s).trans hh)), rfl, ?_, ?_, ?_⟩
  · rw [resetEvent_eq _ _ hdraw]
    rfl
  · exact statusWord_eq_zero rfl rfl rfl rfl
  · exact nextAgent_ne_engine rfl

/-- Settles O52: with BUSY = 0 and no access left no agent can move. -/
theorem powerOnStateIsIdle : Obligations.PowerOnStateIsIdle :=
  ⟨rfl, rfl, rfl, rfl, statusWord_eq_zero rfl rfl rfl rfl, step_idle rfl rfl, fun _ => step_idle⟩

end Sys2Proof.Machine
end

section
/-! PROOF. A host that keeps the busy rule (70_reset_and_hazards.md R250). -/

namespace Sys2Proof.Machine

/-- What the rule asks after a CMD write it asks of fewer lines before one. -/
theorem respectsBusy_false_of_true {host : List HostOp} (h : respectsBusy true host = true) :
    respectsBusy false host = true := by
  induction host with
  | nil => rfl
  | cons op rest ih =>
    rw [respectsBusy_cons] at h ⊢
    have hrest := (Bool.and_eq_true_iff.mp h).2
    cases op with
    | read addr width => exact ih hrest
    | write addr width v =>
      cases hcmd : (HostOp.write addr width v).writesCmd with
      | true => simpa [hcmd] using hrest
      | false => simpa [hcmd] using ih hrest
    | reset => exact hrest
    | poll => exact hrest

theorem respectsBusy_of_or {busy cmd : Bool} {host : List HostOp} (h : respectsBusy (busy || cmd) host = true) :
    respectsBusy busy host = true := by
  cases busy with
  | true => exact h
  | false =>
    cases cmd with
    | true => exact respectsBusy_false_of_true h
    | false => exact h

theorem respectsBusy_read {busy : Bool} {r : Reg} {rest : List HostOp} :
    respectsBusy busy (.read r.addr 4 :: rest) = true ↔
      (busy = false ∨ hiddenWhileBusy r = false) ∧ respectsBusy busy rest = true := by
  rw [respectsBusy_cons, readsHidden_read]
  simp [HostOp.writesProtected]

theorem respectsBusy_write {busy : Bool} {r : Reg} {v : Word} {rest : List HostOp} :
    respectsBusy busy (.write r.addr 4 v :: rest) = true ↔
      (busy = false ∨ protectedReg r = false) ∧ respectsBusy (busy || r == .cmd) rest = true := by
  rw [respectsBusy_cons, writesProtected_write, writesCmd_write]
  simp [HostOp.readsHidden]

theorem respectsBusy_reset {busy : Bool} {rest : List HostOp} :
    respectsBusy busy (.reset :: rest) = respectsBusy false rest := by
  rw [respectsBusy_cons]
  simp [HostOp.writesProtected, HostOp.readsHidden]

theorem respectsBusy_poll {busy : Bool} {rest : List HostOp} :
    respectsBusy busy (.poll :: rest) = respectsBusy false rest := by
  rw [respectsBusy_cons]
  simp [HostOp.writesProtected, HostOp.readsHidden]

theorem protectedReg_iff {r : Reg} :
    protectedReg r = true ↔ r = .cmd ∨ r = .opa ∨ r = .opb ∨ (∃ j, r = .key j) ∨ (∃ c, r = .state c) := by
  cases r <;> simp [protectedReg]

/-- A write within the rule is not dropped, and the rule goes on to hold. -/
theorem Written.keeps_busyRule {s t : State} {r : Reg} {v : Word} (h : Written s r v t) (hovr : s.ovr = false)
    (hreg : s.busy = false ∨ protectedReg r = false) (hrest : respectsBusy (s.busy || r == .cmd) s.host = true) :
    respectsBusy t.busy t.host = true ∧ t.ovr = false := by
  cases h with
  | dropped hb hr =>
    have hprotected := protectedReg_iff.mpr hr
    simp [hb, hprotected] at hreg
  | latched hb hr =>
    subst hr
    exact ⟨by simpa using hrest, hovr⟩
  | cleared hr hv => exact ⟨respectsBusy_of_or hrest, rfl⟩
  | _ => exact ⟨respectsBusy_of_or hrest, hovr⟩

/-- An access within the rule leaves a program within the rule and OVR = 0, and draws no free value unless it is a reset:
POLL ends only with BUSY = 0. -/
theorem hostStep_keeps_busyRule {s t : State} (hrule : respectsBusy s.busy s.host = true) (hovr : s.ovr = false)
    (h : hostStep s = .next t) :
    respectsBusy t.busy t.host = true ∧ t.ovr = false ∧ (t.draws ≠ s.draws → s.host.head? = some .reset) := by
  obtain ⟨-, rfl⟩ | ⟨r, rest, hh, rfl⟩ | ⟨r, v, rest, hh, rfl⟩ | ⟨rest, hh, rfl⟩ | ⟨rest, hh, rfl⟩ := hostStep_cases h
  · exact ⟨hrule, hovr, fun hne => absurd rfl hne⟩
  · rw [hh, respectsBusy_read] at hrule
    obtain ⟨hreg, hrest⟩ := hrule
    exact ⟨hrest, hovr, fun hne => absurd (drawsAfterRead_exact (s := s.setHost rest) hreg) hne⟩
  · rw [hh, respectsBusy_write] at hrule
    obtain ⟨hreg, hrest⟩ := hrule
    have hw := memWrite_written (s.setHost rest) r v
    obtain ⟨hrule', hovr'⟩ := hw.keeps_busyRule hovr hreg hrest
    exact ⟨hrule', hovr', fun hne => absurd (by rw [hw.frame]; rfl) hne⟩
  · rw [hh, respectsBusy_reset] at hrule
    exact ⟨hrule, rfl, fun _ => by rw [hh]; rfl⟩
  · rw [pollRead_eq]
    refine ⟨?_, hovr, fun hne => absurd rfl hne⟩
    cases hb : s.busy with
    | true => simpa [hb] using hrule
    | false =>
      rw [hh, respectsBusy_poll] at hrule
      simpa [hb] using hrule

/-- Settles O56: the engine clears BUSY, which asks less of the program, and the host's turn is `hostStep_keeps_busyRule`. -/
theorem hostKeepingTheBusyRuleNeverOverruns : Obligations.HostKeepingTheBusyRuleNeverOverruns := by
  intro s t hrule hovr h
  obtain ⟨hn, hs⟩ | ⟨hn, hs⟩ | ⟨hn, hs⟩ := step_cases s
  · rw [nextAgent_engine_busy hn] at hrule
    rw [engineStep_frame (hs.symm.trans h)]
    exact ⟨by simpa using respectsBusy_false_of_true hrule, (takeTurn_ovr s).trans hovr,
      fun hne => absurd (takeTurn_draws s) hne⟩
  · simpa using hostStep_keeps_busyRule (s := takeTurn s) (by simpa using hrule) (by simpa using hovr) (hs.symm.trans h)
  · obtain rfl := Host.Outcome.next.inj (hs.symm.trans h)
    exact ⟨hrule, hovr, fun hne => absurd rfl hne⟩

end Sys2Proof.Machine
end

section
/-! PROOF. Runs of the machine: progress, the end of BUSY and of POLL, and every interleaving (20_memory.md R52, R62;
70_reset_and_hazards.md R252). -/

namespace Sys2Proof.Machine

/-! ### Legal host lines have a step -/

theorem HostOp.legal_cases {op : HostOp} (h : op.legal = true) :
    (∃ r, op = .read (Reg.addr r) 4) ∨ (∃ r v, op = .write (Reg.addr r) 4 v) ∨ op = .reset ∨ op = .poll := by
  have haccess {addr width : Nat} (h : (access addr width).toBool = true) :
      ∃ r : Reg, width = 4 ∧ r.addr = addr := by
    cases ha : access addr width with
    | ok r => exact ⟨r, access_eq_ok.mp ha⟩
    | error e => simp [ha, Except.toBool] at h
  cases op with
  | read addr width =>
    obtain ⟨r, rfl, rfl⟩ := haccess h
    exact .inl ⟨r, rfl⟩
  | write addr width v =>
    obtain ⟨r, rfl, rfl⟩ := haccess h
    exact .inr (.inl ⟨r, v, rfl⟩)
  | reset => exact .inr (.inr (.inl rfl))
  | poll => exact .inr (.inr (.inr rfl))

/-- A legal line has a next state, and the host goes on with the lines after it, or polls again. -/
theorem hostStep_legal {s : State} {op : HostOp} {rest : List HostOp} (hh : s.host = op :: rest)
    (hlegal : op.legal = true) :
    ∃ t, hostStep s = .next t ∧ (t.host = rest ∨ (s.busy = true ∧ op = .poll ∧ t.host = s.host)) := by
  obtain ⟨r, rfl⟩ | ⟨r, v, rfl⟩ | rfl | rfl := HostOp.legal_cases hlegal
  · exact ⟨_, hostStep_read hh, .inl rfl⟩
  · refine ⟨_, hostStep_write hh, .inl ?_⟩
    rw [(memWrite_written _ r v).frame]
    rfl
  · exact ⟨_, hostStep_reset hh, .inl rfl⟩
  · refine ⟨_, hostStep_poll hh, ?_⟩
    cases hb : s.busy with
    | true => exact .inr ⟨rfl, rfl, rfl⟩
    | false => exact .inl rfl

theorem engineStep_next (s : State) : ∃ t, engineStep s = .next t := by
  obtain ⟨i, t, -, -, -, h⟩ | ⟨e, -, h⟩ := engineStep_cases s <;> exact ⟨_, h⟩

/-- The engine's turn: BUSY ends, and the host's program stays. -/
theorem step_engine_next {s : State} (hn : nextAgent s = some .engine) :
    ∃ t, step s = .next t ∧ t.busy = false ∧ t.host = s.host := by
  obtain ⟨t, ht⟩ := engineStep_next (takeTurn s)
  exact ⟨t, (step_engine hn).trans ht, engineStep_busy ht, (engineStep_host ht).trans (takeTurn_host s)⟩

/-- A legal program always has a step, after which some lines from its start on are done. -/
theorem step_legal {s : State} (hlegal : ∀ op ∈ s.host, op.legal = true) :
    ∃ t, step s = .next t ∧ t.host <:+ s.host := by
  obtain ⟨hn, -⟩ | ⟨hn, hs⟩ | ⟨-, hs⟩ := step_cases s
  · obtain ⟨t, ht, -, hhost⟩ := step_engine_next hn
    exact ⟨t, ht, hhost ▸ List.suffix_refl _⟩
  · obtain ⟨op, rest, hh⟩ := List.exists_cons_of_ne_nil (nextAgent_host hn)
    obtain ⟨t, ht, hhost | ⟨-, -, hhost⟩⟩ :=
      hostStep_legal ((takeTurn_host s).trans hh) (hlegal op (hh ▸ List.mem_cons_self))
    · exact ⟨t, hs.trans ht, hh ▸ hhost ▸ List.suffix_cons op rest⟩
    · exact ⟨t, hs.trans ht, (hhost.trans (takeTurn_host s)) ▸ List.suffix_refl _⟩
  · exact ⟨s, hs, List.suffix_refl _⟩

/-- Settles O55: the lines still to come are among those that came before. -/
theorem legalHostNeverStops : Obligations.LegalHostNeverStops := by
  intro s hlegal
  obtain ⟨t, ht, hsuffix⟩ := step_legal hlegal
  exact ⟨t, ht, fun op hop => hlegal op (hsuffix.subset hop)⟩

/-! ### While BUSY = 1 -/

/-- While BUSY = 1 the engine moves, or the host, with an access left and the next turn its own. -/
theorem nextAgent_busy_cases {s : State} (hb : s.busy = true) :
    nextAgent s = some .engine ∨
    (nextAgent s = some .host ∧ ∃ op rest turns, s.host = op :: rest ∧ s.turns = .host :: turns) := by
  cases hh : s.host with
  | nil => exact .inl (by simp only [nextAgent, hb, hh])
  | cons op rest =>
    cases ht : s.turns with
    | nil => exact .inl (by simp only [nextAgent, hb, hh, ht])
    | cons a turns =>
      cases a with
      | engine => exact .inl (by simp only [nextAgent, hb, hh, ht])
      | host => exact .inr ⟨by simp only [nextAgent, hb, hh, ht], op, rest, turns, rfl, rfl⟩

theorem Written.keeps_busy {s t : State} {r : Reg} {v : Word} (h : Written s r v t) (hb : s.busy = true) :
    t.busy = true := by
  cases h with
  | latched hidle => exact absurd (hb.symm.trans hidle) (by decide)
  | _ => exact hb

/-- While BUSY = 1 no access but a reset clears BUSY, and none touches the turns. -/
theorem hostStep_busy {s t : State} (hb : s.busy = true) (hreset : s.host.head? ≠ some .reset)
    (h : hostStep s = .next t) : t.busy = true ∧ t.turns = s.turns := by
  obtain ⟨-, rfl⟩ | ⟨r, rest, -, rfl⟩ | ⟨r, v, rest, -, rfl⟩ | ⟨rest, hh, -⟩ | ⟨rest, -, rfl⟩ := hostStep_cases h
  · exact ⟨hb, rfl⟩
  · exact ⟨hb, rfl⟩
  · have hw := memWrite_written (s.setHost rest) r v
    exact ⟨hw.keeps_busy hb, by rw [hw.frame]; rfl⟩
  · exact absurd (by rw [hh]; rfl) hreset
  · rw [pollRead_eq]
    exact ⟨hb, rfl⟩

theorem run_engine {s : State} (hn : nextAgent s = some .engine) (n : Nat) :
    ∃ k ≤ n + 1, ∃ t, core.run k s = .next t ∧ t.busy = false := by
  obtain ⟨t, hst, hidle, -⟩ := step_engine_next hn
  exact ⟨1, Nat.le_add_left 1 n, t, run_step 0 hst, hidle⟩

/-- Each host access uses up a turn, and with none left the engine moves. -/
theorem run_until_idle (turns : List Agent) :
    ∀ s : State, s.turns = turns → s.busy = true → (∀ op ∈ s.host, op.legal = true ∧ op ≠ .reset) →
      ∃ k ≤ turns.length + 1, ∃ t, core.run k s = .next t ∧ t.busy = false := by
  induction turns with
  | nil =>
    intro s ht hb _
    obtain hn | ⟨-, op, rest, turns, -, hcons⟩ := nextAgent_busy_cases hb
    · exact run_engine hn _
    · exact absurd (ht.symm.trans hcons) (by simp)
  | cons a turns ih =>
    intro s ht hb hlegal
    obtain hn | ⟨hn, op, rest, turns', hh, hcons⟩ := nextAgent_busy_cases hb
    · exact run_engine hn _
    · obtain ⟨t, hst, hsuffix⟩ := step_legal fun op hop => (hlegal op hop).1
      have hreset : (takeTurn s).host.head? ≠ some .reset := by
        rw [takeTurn_host, hh, List.head?_cons]
        exact fun h => (hlegal op (hh ▸ List.mem_cons_self)).2 (Option.some.inj h)
      obtain ⟨htb, htt⟩ := hostStep_busy ((takeTurn_busy s).trans hb) hreset ((step_host hn).symm.trans hst)
      have hturns : t.turns = turns := by rw [htt, takeTurn_of_busy hb, ht, List.tail_cons]
      obtain ⟨k, hk, u, hu, hidle⟩ := ih t hturns htb fun op hop => hlegal op (hsuffix.subset hop)
      exact ⟨k + 1, by simpa using hk, u, (run_step k hst).trans hu, hidle⟩

/-- Settles O53: by induction on the turns. -/
theorem busyEnds : Obligations.BusyEnds := fun s hb hlegal => run_until_idle s.turns s rfl hb hlegal

/-! ### POLL -/

theorem step_poll {s : State} {rest : List HostOp} (hn : nextAgent s = some .host) (hh : s.host = .poll :: rest) :
    step s = .next
      { takeTurn s with host := if s.busy then s.host else rest, rdata := some (statusWord s) } := by
  rw [step_host hn, hostStep_poll ((takeTurn_host s).trans hh)]
  simp only [takeTurn_busy, takeTurn_host, statusWord_takeTurn]

/-- With BUSY = 0 a poll ends. -/
theorem step_poll_idle {s : State} {rest : List HostOp} (hb : s.busy = false) (hh : s.host = .poll :: rest) :
    step s = .next { s with host := rest, rdata := some (statusWord s) } := by
  have hn : nextAgent s = some .host := by simp [nextAgent_idle hb, hh]
  rw [step_poll hn hh, takeTurn_idle hb, if_neg (by simp [hb])]

/-- While BUSY = 1 a poll is repeated. -/
theorem step_poll_busy {s : State} {rest : List HostOp} (hb : s.busy = true) (hn : nextAgent s = some .host)
    (hh : s.host = .poll :: rest) :
    step s = .next { s with turns := s.turns.tail, rdata := some (statusWord s) } := by
  rw [step_poll hn hh, takeTurn_of_busy hb, if_pos hb]

theorem engineStep_of_error {s : State} {e : DecodeError} (h : decode s.cmdl = .error e) :
    engineStep s = .next { s with err := 1, busy := false } := by
  obtain ⟨i, -, hd, -⟩ | ⟨-, -, hstep⟩ := engineStep_cases s
  · exact absurd (h.symm.trans hd) (by simp)
  · exact hstep

/-- The engine step has the same effect whatever the turns and the read data are. -/
theorem engineStep_withUnread {s t : State} (turns : List Agent) (rdata : Option Word) (h : engineStep s = .next t) :
    engineStep (withUnread s s.key turns rdata) = .next (withUnread t t.key turns rdata) := by
  obtain ⟨i, u, hd, hu, heffect, hstep⟩ | ⟨e, hd, hstep⟩ := engineStep_cases s
  · obtain rfl : t = { u with busy := false } := Host.Outcome.next.inj (h.symm.trans hstep)
    have hkey : u.key = s.key := by rw [heffect.frame]
    have hunread := exec_withUnread (fun _ => rfl) turns rdata hu
    rw [engineStep_of_decode (s := withUnread s s.key turns rdata) hd hunread, ← hkey]
    rfl
  · obtain rfl : t = { s with err := 1, busy := false } := Host.Outcome.next.inj (h.symm.trans hstep)
    exact engineStep_of_error (s := withUnread s s.key turns rdata) hd

/-- Whatever the turns, a host at POLL gets past it, with BUSY = 0 shown, in the same state but for the turns left: the
engine's effect does not depend on how often STATUS was read before it. -/
theorem run_poll {s t : State} {rest : List HostOp} (hb : s.busy = true) (hh : s.host = .poll :: rest)
    (ht : engineStep s = .next t) (turns : List Agent) (rdata : Option Word) :
    ∃ k ≤ turns.length + 2, ∃ left, core.run k (withUnread s s.key turns rdata) =
      .next { t with turns := left, host := rest, rdata := some (statusWord t) } := by
  have hidle : t.busy = false := engineStep_busy ht
  have hhost : t.host = .poll :: rest := (engineStep_host ht).trans hh
  have hengine (turns : List Agent) (rdata : Option Word)
      (hn : nextAgent (withUnread s s.key turns rdata) = some .engine) :
      core.run 2 (withUnread s s.key turns rdata) =
        .next { t with turns := turns.tail, host := rest, rdata := some (statusWord t) } := by
    have hstep : step (withUnread s s.key turns rdata) = .next (withUnread t t.key turns.tail rdata) := by
      rw [step_engine hn, takeTurn_of_busy (s := withUnread s s.key turns rdata) hb]
      exact engineStep_withUnread (s := s) turns.tail rdata ht
    exact (run_step 1 hstep).trans (run_step 0 (step_poll_idle hidle hhost))
  induction turns generalizing rdata with
  | nil => exact ⟨2, Nat.le_refl 2, _, hengine [] rdata (by simp [nextAgent, withUnread, hb, hh])⟩
  | cons a turns ih =>
    cases a with
    | engine => exact ⟨2, by simp, _, hengine _ rdata (by simp [nextAgent, withUnread, hb, hh])⟩
    | host =>
      have hn : nextAgent (withUnread s s.key (.host :: turns) rdata) = some .host := by
        simp [nextAgent, withUnread, hb, hh]
      have hstep := step_poll_busy (s := withUnread s s.key (.host :: turns) rdata) hb hn hh
      obtain ⟨k, hk, left, hrun⟩ := ih (some (statusWord (withUnread s s.key (.host :: turns) rdata)))
      exact ⟨k + 1, by simpa using hk, left, (run_step k hstep).trans hrun⟩

/-- Settles O54: with BUSY = 0 the first read ends POLL, and while BUSY = 1 `run_poll` counts the steps. -/
theorem pollEnds : Obligations.PollEnds := by
  intro s rest hh
  cases hb : s.busy with
  | false =>
    exact ⟨1, by omega, _, run_step 0 (step_poll_idle hb hh), rfl, hb, _, rfl, by rw [showsBusy_statusWord, hb]⟩
  | true =>
    obtain ⟨t, ht⟩ := engineStep_next s
    have hidle : t.busy = false := engineStep_busy ht
    obtain ⟨k, hk, left, hrun⟩ := run_poll hb hh ht s.turns s.rdata
    exact ⟨k, hk, _, hrun, rfl, hidle, _, rfl, by rw [showsBusy_statusWord, hidle]⟩

/-! ### Every interleaving -/

theorem step_of_idle {s : State} (hb : s.busy = false) : step s = hostStep s := by
  cases hh : s.host with
  | nil => rw [step_idle hb hh, hostStep, hh]
  | cons op rest => rw [step_host (by simp [nextAgent_idle hb, hh]), takeTurn_idle hb]

theorem unlessBusy_setTurns (s accepted : State) (turns : List Agent) :
    unlessBusy (s.setTurns turns) (accepted.setTurns turns) = (unlessBusy s accepted).setTurns turns :=
  (apply_ite (State.setTurns · turns) (s.busy = true) (s.setOvr true) accepted).symm

theorem memWrite_setTurns (s : State) (r : Reg) (v : Word) (turns : List Agent) :
    memWrite (s.setTurns turns) r v = (memWrite s r v).setTurns turns := by
  cases r with
  | status => exact (apply_ite (State.setTurns · turns) (clearsOvr v = true) (s.setOvr false) s).symm
  | res | rkw i => rfl
  | cmd => exact unlessBusy_setTurns s ((s.setCmdl v).setBusy true) turns
  | opa => exact unlessBusy_setTurns s (s.setOpa (byteOf 3 v)) turns
  | opb => exact unlessBusy_setTurns s (s.setOpb (byteOf 3 v)) turns
  | key j => exact unlessBusy_setTurns s (s.setKey (s.key.set j v)) turns
  | state c => exact unlessBusy_setTurns s (s.setState (setStateWord s.state c v)) turns

/-- No access depends on the turns or changes them. -/
theorem hostStep_setTurns {s t : State} (turns : List Agent) (h : hostStep s = .next t) :
    hostStep (s.setTurns turns) = .next (t.setTurns turns) := by
  obtain ⟨hh, rfl⟩ | ⟨r, rest, hh, rfl⟩ | ⟨r, v, rest, hh, rfl⟩ | ⟨rest, hh, rfl⟩ | ⟨rest, hh, rfl⟩ := hostStep_cases h
  · rw [hostStep, State.setTurns_host, hh]
  · rw [hostStep_read (s := s.setTurns turns) hh]
    exact congrArg _ (memRead_withHostSide s turns rest r)
  · rw [hostStep_write (s := s.setTurns turns) hh]
    exact congrArg _ (memWrite_setTurns (s.setHost rest) r v turns)
  · exact hostStep_reset (s := s.setTurns turns) hh
  · rw [pollRead_eq, hostStep_poll (s := s.setTurns turns) hh]
    rfl

theorem Written.cmd_of_sets_busy {s t : State} {r : Reg} {v : Word} (h : Written s r v t) (hb : s.busy = false)
    (ht : t.busy = true) : r = .cmd := by
  cases h with
  | latched hidle hr => exact hr
  | _ => exact absurd ht (not_raised_of_eq rfl hb)

/-- With BUSY = 0 only a CMD write sets BUSY. -/
theorem hostStep_sets_busy {s t : State} (hb : s.busy = false) (h : hostStep s = .next t) (ht : t.busy = true) :
    ∃ op rest, s.host = op :: rest ∧ op.writesCmd = true := by
  obtain ⟨-, rfl⟩ | ⟨r, rest, -, rfl⟩ | ⟨r, v, rest, hh, rfl⟩ | ⟨rest, -, rfl⟩ | ⟨rest, -, rfl⟩ := hostStep_cases h
  · exact absurd ht (not_raised_of_eq rfl hb)
  · exact absurd ht (not_raised_of_eq rfl hb)
  · obtain rfl := (memWrite_written (s.setHost rest) r v).cmd_of_sets_busy hb ht
    exact ⟨_, _, hh, writesCmd_write .cmd v⟩
  · exact absurd ht (by simp [resetEvent])
  · rw [pollRead_eq] at ht
    exact absurd ht (not_raised_of_eq rfl hb)

/-- One line of the program done, a POLL while BUSY = 1 with the engine step it waits for: where this leads does not depend
on the turns. -/
theorem run_line {s : State} {op : HostOp} {rest : List HostOp} (hh : s.host = op :: rest)
    (hform : runForm (op :: rest) = true) (hlegal : op.legal = true) (hpoll : s.busy = true → op = .poll) :
    ∃ u : State, u.host = rest ∧ (u.busy = true → rest.head? = some .poll) ∧
      ∀ turns, ∃ k left, core.run k (s.setTurns turns) = .next (u.setTurns left) := by
  cases hb : s.busy with
  | false =>
    obtain ⟨u, hu, hhost | ⟨hbusy, -⟩⟩ := hostStep_legal hh hlegal
    · refine ⟨u, hhost, fun hub => ?_, fun turns => ⟨1, turns, run_step 0 ?_⟩⟩
      · obtain ⟨op', rest', hh', hcmd⟩ := hostStep_sets_busy hb hu hub
        obtain ⟨rfl, rfl⟩ := List.cons.inj (hh.symm.trans hh')
        rw [runForm_cons, hcmd] at hform
        simpa using (Bool.and_eq_true_iff.mp hform).1
      · exact (step_of_idle (s := s.setTurns turns) hb).trans (hostStep_setTurns turns hu)
    · exact absurd hbusy (by simp [hb])
  | true =>
    obtain rfl := hpoll hb
    obtain ⟨t, ht⟩ := engineStep_next s
    have hidle : t.busy = false := engineStep_busy ht
    refine ⟨{ t with host := rest, rdata := some (statusWord t) }, rfl, fun hbusy => ?_, fun turns => ?_⟩
    · exact absurd hbusy (not_raised_of_eq rfl hidle)
    · obtain ⟨k, -, left, hrun⟩ := run_poll hb hh ht turns s.rdata
      exact ⟨k, left, hrun⟩

theorem run_program (host : List HostOp) :
    ∀ s : State, s.host = host → runForm host = true → (∀ op ∈ host, op.legal = true) →
      (s.busy = true → host.head? = some .poll) →
      ∃ t : State, t.host = [] ∧ t.busy = false ∧
        ∀ turns, ∃ k left, core.run k (s.setTurns turns) = .next (t.setTurns left) := by
  induction host with
  | nil =>
    intro s hh _ _ hpoll
    exact ⟨s, hh, by simpa using hpoll, fun turns => ⟨0, turns, rfl⟩⟩
  | cons op rest ih =>
    intro s hh hform hlegal hpoll
    obtain ⟨u, hhost, hupoll, hrun⟩ := run_line hh hform (hlegal op List.mem_cons_self)
      fun hb => by simpa using hpoll hb
    have hrest : runForm rest = true := (Bool.and_eq_true_iff.mp (runForm_cons op rest ▸ hform)).2
    obtain ⟨t, hdone, hidle, hruns⟩ := ih u hhost hrest (fun o ho => hlegal o (List.mem_cons_of_mem op ho)) hupoll
    refine ⟨t, hdone, hidle, fun turns => ?_⟩
    obtain ⟨j, mid, hj⟩ := hrun turns
    obtain ⟨k, left, hk⟩ := hruns mid
    exact ⟨j + k, left, (run_add k hj).trans hk⟩

/-- Settles O57: by induction on the program, line by line. -/
theorem interleavingDoesNotMatterForPollingHosts : Obligations.InterleavingDoesNotMatterForPollingHosts :=
  fun s hb hform hlegal => run_program s.host s rfl hform hlegal fun hbusy => absurd hbusy (by simp [hb])

end Sys2Proof.Machine
end
